-- ==== Sys2Proof/Word.lean ====
section
/-! DEFINITION. The words of the CM818: bytes, tags, indices, numbers of tributaries and plans, and the plainest arithmetic on them.
Bit vectors stand only for what the manual treats as bits or as a field of fixed width. -/

namespace Sys2Proof

/-- A byte of a line, of a payload or of a management field. -/
abbrev Byte := BitVec 8

/-- The number of a tributary T0..T7 (00_scope.md, Terms). -/
abbrev Trib := Fin 8

/-- The number of a plan, 0 or 1 (R56). -/
abbrev PlanId := Fin 2

/-- A channel tag, 0..1023 (R7). -/
abbrev Tag := BitVec 10

/-- A local channel of a tributary link, 0..63 (R7). -/
abbrev Channel := BitVec 6

/-- The index of a cell within its message, counted modulo 32 (R3). -/
abbrev Index := BitVec 5

/-- The fill of a header, 0..63 as carried (R177). -/
abbrev Fill := BitVec 6

/-- The eight tributaries in number order. -/
def allTribs : List Trib := [0, 1, 2, 3, 4, 5, 6, 7]

/-- A number as one byte of a management payload. -/
def byteOf (n : Nat) : Byte := BitVec.ofNat 8 n

/-- A flag as one byte of a management payload: 1 or 0. -/
def flagByte (b : Bool) : Byte := if b then 1 else 0

/-- A two-byte value, more significant byte first (R178, R179). -/
def bytes16 (n : Nat) : List Byte := [BitVec.ofNat 8 (n / 256), BitVec.ofNat 8 n]

/-- A four-byte counter value, most significant byte first (R167). -/
def bytes32 (c : BitVec 32) : List Byte :=
  [c.extractLsb' 24 8, c.extractLsb' 16 8, c.extractLsb' 8 8, c.extractLsb' 0 8]

/-- One step up of an 8-bit value that stays at 255 (R148, R155). -/
def saturate8 (b : Byte) : Byte := if b = 255 then 255 else b + 1

/-- One step up of a 16-bit value that stays at 65535 (R172). -/
def saturate16 (w : BitVec 16) : BitVec 16 := if w = 65535 then 65535 else w + 1

end Sys2Proof
end

