-- ==== Sys2Proof/Config.lean ====
section
/-! DEFINITION. What the manual fixes for every CM818: the sizes of its stores, queues and lists.
The manual leaves no result value open, so there is no free value here (notes/assumptions/1.md). -/

namespace Sys2Proof.Config

/-- The cell buffers of the store (R17). -/
def buffers : Nat := 512

/-- The most the sixteen floors may add up to (R19, R32). -/
def maxFloorSum : Nat := 384

/-- The bytes of a cell on a link (R1). -/
def cellBytes : Nat := 36

/-- The payload bytes of a cell on a link (R1). -/
def payloadBytes : Nat := 32

/-- The commands the command queue holds (R130). -/
def commandDepth : Nat := 4

/-- The entries of the response queue (R137). -/
def responseDepth : Nat := 8

/-- The ordinary records of the notice list (R148). -/
def noticeDepth : Nat := 8

/-- The assignable trunk tags are those below this one (R7). -/
def assignableTags : Nat := 1008

end Sys2Proof.Config
end

