-- ==== Sys2Proof/Syntax.lean ====
section
/-! DEFINITION. The commands of the block: one constructor of `Instr` for each row of spec/opcode_table.json, with the row's operands.
The operands of a management command are not here: they are the operand bytes of the oldest command in the part's own command queue,
where the intake of a command cell put them (R130, R133; notes/assumptions/2.md). -/

namespace Sys2Proof

/-- One of the nine links of the part (R8): the trunk, or the link of tributary Tn. -/
inductive Link where
  | trunk
  | tributary (n : Trib)
  deriving DecidableEq, Repr

/-- The turn of a posting among the postings that other blocks make in the same step: before or after them (R147, R152).
A command written without it has `last`, which is no rule of the manual: every statement is made for both. -/
inductive Turn where
  | first
  | last
  deriving DecidableEq, Repr

/-- An event of the store that may be taken between the two offers one trunk arrival can make (R116, R22): a send in a trunk slot or a
tributary cell time, a header test of a tributary receiver with the admission or cut it may bring, a signal loss of a tributary line with
its cut and flush, or the execution of a WRITE PORT or FLUSH PORT at the head of the command queue.
`turn` is the turn of the port's PORT_CHANGE, as in the step of its own. -/
inductive StoreEvent where
  | slot
  | cellTime (n : Trib)
  | headerTest (n : Trib) (bytes : List Byte) (turn : Turn)
  | signalLoss (n : Trib) (turn : Turn)
  | writePort (turn : Turn)
  | flushPort
  deriving DecidableEq, Repr

/-- When the survey takes a boundary (R82, R173): in this step alone, with every other block left to a later step; before or after the
plan store; or later than this step, at the latest in slot 0 of the next cycle ahead of that slot's report (R172). -/
inductive SurveyTurn where
  | alone
  | beforePlan
  | afterPlan
  | late
  deriving DecidableEq, Repr

/-- The orders the manual leaves open at a cycle boundary (R82, R147, R155, R173): when the survey takes it, the turn of a SURVEY_DONE
beside the plan store's posting, and whether the notice list takes it only after slot 0 of the next cycle. -/
structure BoundaryOrder where
  survey : SurveyTurn
  surveyPost : Turn
  noticesLate : Bool
  deriving DecidableEq, Repr

/-- The steps of the part, one constructor for each row of the table of operations and events. -/
inductive Instr where
  /-- POWER_ON: power-on begins a hard reset (R16). -/
  | powerOn
  /-- RESET_N: a falling edge of RESET_N (R181). -/
  | resetN
  /-- HARD_RESET_END: the conditions that end a hard reset have all come (R16, R181). -/
  | hardResetEnd
  /-- SIGNAL_LOSS: the line into a receiver loses signal (R11); `turn` is that of the PORT_CHANGE of a lock loss (R38, R147). -/
  | signalLoss (l : Link) (turn : Turn := .last)
  /-- SIGNAL_RETURN: signal returns to the line into a receiver (R11). -/
  | signalReturn (l : Link)
  /-- SEEK_HEADER_TEST: a receiver in SEEK tests the four bytes at its candidate position (R8). -/
  | seekHeaderTest (l : Link) (bytes : List Byte)
  /-- CONFIRM_HEADER_TEST: a receiver in CONFIRM tests the header of the 36 bytes of the next cell (R9); `turn` is that of the posting
  of an entry to LOCKED beside the postings of the cell handed on (R12, R147). -/
  | confirmHeaderTest (l : Link) (bytes : List Byte) (turn : Turn := .last)
  /-- LOCKED_HEADER_TEST: a receiver in LOCKED tests the header of the 36 bytes of the next cell (R10); `turn` is that of the
  PORT_CHANGE of a lock loss (R38, R147), and `between` names the events the store takes between the two offers of a refused LAST and
  its conversion (R116). -/
  | lockedHeaderTest (l : Link) (bytes : List Byte) (between : List StoreEvent) (turn : Turn := .last)
  /-- SLOT: the trunk transmitter asks for the cell of the next slot (R83). -/
  | slot
  /-- CYCLE_BOUNDARY: the boundary after slot L-1 is delivered (R82). -/
  | cycleBoundary (order : BoundaryOrder)
  /-- PLAN_REVERTED: the plan store takes the boundary that ends the last trial cycle (R75). -/
  | planReverted
  /-- NOTICE_REPEAT_EXPIRY: the notice list takes a boundary that brings a repeat timer to the interval (R155). -/
  | noticeRepeatExpiry
  /-- SURVEY_DONE: the survey takes the boundary that completes its window (R171). -/
  | surveyDone
  /-- TRIBUTARY_CELL_TIME: the transmitter of Tn asks for the cell of its next cell time (R48). -/
  | tributaryCellTime (n : Trib)
  /-- ECHO executed (R140). -/
  | echo
  /-- IDENTIFY executed (R141). -/
  | identify
  /-- READ STATUS executed (R142). -/
  | readStatus
  /-- RESTART executed (R143). -/
  | restart
  /-- A command of unknown kind executed (R133). -/
  | unknownKind
  /-- SELECT EDIT PLAN executed (R62). -/
  | selectEditPlan
  /-- WRITE SLOTS executed (R63). -/
  | writeSlots
  /-- SET CYCLE LENGTH executed (R64). -/
  | setCycleLength
  /-- WRITE TRIBUTARY ENTRY executed (R65). -/
  | writeTributaryEntry
  /-- SET PLAN OPTIONS executed (R66). -/
  | setPlanOptions
  /-- COPY PLAN executed (R67). -/
  | copyPlan
  /-- READ SLOTS executed (R68). -/
  | readSlots
  /-- READ TRIBUTARY ENTRY executed (R69). -/
  | readTributaryEntry
  /-- READ PLAN OPTIONS executed (R70). -/
  | readPlanOptions
  /-- SWITCH PLAN executed (R71). -/
  | switchPlan
  /-- CONFIRM PLAN executed (R76). -/
  | confirmPlan
  /-- WRITE PORT executed (R50); `turn` is that of a PORT_CHANGE beside the MESSAGE_CUT of a disable (R51, R147). -/
  | writePort (turn : Turn := .last)
  /-- READ PORT executed (R49). -/
  | readPort
  /-- FLUSH PORT executed (R52). -/
  | flushPort
  /-- WRITE CHANNELS executed (R123). -/
  | writeChannels
  /-- READ CHANNEL executed (R124). -/
  | readChannel
  /-- READ COUNTERS executed (R167). -/
  | readCounters
  /-- CLEAR COUNTERS executed (R168). -/
  | clearCounters
  /-- START SURVEY executed (R170). -/
  | startSurvey
  /-- STOP SURVEY executed (R174). -/
  | stopSurvey
  /-- READ SURVEY executed (R175). -/
  | readSurvey
  /-- ACK NOTICE executed (R156). -/
  | ackNotice
  /-- SET NOTICE OPTIONS executed (R158). -/
  | setNoticeOptions
  deriving DecidableEq, Repr

end Sys2Proof
end

