-- ==== Sys2Proof/WellFormed.lean ====
section
/-! DEFINITION. The checks a term of `Instr` must pass to be a step of the hardware: a header test in SEEK is of four bytes (R8), one in
CONFIRM or LOCKED is of a whole cell of 36 bytes (R1, R9, R10), and events between two offers arise only at a trunk arrival (R116). -/

namespace Sys2Proof

/-- A test in SEEK is made on four bytes (R8). -/
def seekBytesOk (bytes : List Byte) : Bool := bytes.length == 4

/-- A test in CONFIRM or LOCKED is made on a cell of 36 bytes (R1). -/
def cellBytesOk (bytes : List Byte) : Bool := bytes.length == Config.cellBytes

/-- A header test between two offers is of a cell of 36 bytes (R1). -/
def StoreEvent.wf : StoreEvent → Bool
  | .slot => true
  | .cellTime _ => true
  | .headerTest _ bytes _ => cellBytesOk bytes
  | .signalLoss _ _ => true
  | .writePort _ => true
  | .flushPort => true

/-- Only an arrival from the trunk makes a second offer to the store (R116). -/
def betweenOk : Link → List StoreEvent → Bool
  | .trunk, between => between.all StoreEvent.wf
  | .tributary _, between => between.isEmpty

/-- The well-formed steps. -/
def Instr.wf : Instr → Bool
  | .powerOn => true
  | .resetN => true
  | .hardResetEnd => true
  | .signalLoss _ _ => true
  | .signalReturn _ => true
  | .seekHeaderTest _ bytes => seekBytesOk bytes
  | .confirmHeaderTest _ bytes _ => cellBytesOk bytes
  | .lockedHeaderTest l bytes between _ => cellBytesOk bytes && betweenOk l between
  | .slot => true
  | .cycleBoundary _ => true
  | .planReverted => true
  | .noticeRepeatExpiry => true
  | .surveyDone => true
  | .tributaryCellTime _ => true
  | .echo => true
  | .identify => true
  | .readStatus => true
  | .restart => true
  | .unknownKind => true
  | .selectEditPlan => true
  | .writeSlots => true
  | .setCycleLength => true
  | .writeTributaryEntry => true
  | .setPlanOptions => true
  | .copyPlan => true
  | .readSlots => true
  | .readTributaryEntry => true
  | .readPlanOptions => true
  | .switchPlan => true
  | .confirmPlan => true
  | .writePort _ => true
  | .readPort => true
  | .flushPort => true
  | .writeChannels => true
  | .readChannel => true
  | .readCounters => true
  | .clearCounters => true
  | .startSurvey => true
  | .stopSurvey => true
  | .readSurvey => true
  | .ackNotice => true
  | .setNoticeOptions => true

end Sys2Proof
end

