-- ==== Sys2Proof/Decode.lean ====
section
/-! DEFINITION. The table of this block's steps (spec/opcode_table.json) gives no row any bits: its commands are events and the executions
of commands held in the part, not words of an instruction memory.
So no word spells a command. The layouts the part does have, of cell headers and management payloads (R177 to R180), are in
Machine/Operands.lean. -/

namespace Sys2Proof

/-- The command a word spells by the table's bits: none, since no row of the table gives bits. -/
def decodeTableWord (_nbits _w : Nat) : Option Instr := none

end Sys2Proof
end

