-- ==== Sys2Proof/Machine/State.lean ====
section
/-! DEFINITION. The state of the CM818, block by block as 00_scope.md divides it, the ways a step can stop, and the state right after reset.
Everything is plain data. -/

namespace Sys2Proof.Machine

/-! ## Cells -/

/-- The place of a cell in its message (R3). -/
inductive Position where
  | middle
  | last
  | first
  | sole
  deriving DecidableEq, Repr

/-- A cell: its header fields and its meaningful payload bytes (R1, R17).
In a data queue `tag` is the forwarding tag (R17); on a line it is the tag of the link. -/
structure Cell where
  tag : Tag
  position : Position
  abandon : Bool
  fill : Fill
  index : Index
  payload : List Byte
  deriving DecidableEq, Repr

/-! ## Links (chapter 1) -/

/-- The delineation state of a receiver (section 1.6). -/
inductive Delineation where
  | seek
  | confirm
  | locked
  deriving DecidableEq, Repr

/-- A receiver: its delineation state, its consecutive count, and the byte of the incoming stream at which the next header test begins,
counted from the first byte recovered; in SEEK that byte is the candidate position (R8). -/
structure Receiver where
  delineation : Delineation
  count : Nat
  position : Nat
  deriving DecidableEq, Repr

/-- What a transmitter has on its line: nothing while hard reset holds it silent, no cell in progress at a cell boundary, or the
cell in progress (R13, R16). -/
inductive Transmitter where
  | silent
  | boundary
  | sending (c : Cell)
  deriving DecidableEq, Repr

/-- The nine receivers and transmitters, and whether each incoming line carries signal (R11). -/
structure Links where
  trunkRx : Receiver
  tribRx : Vector Receiver 8
  trunkSignal : Bool
  tribSignal : Vector Bool 8
  trunkTx : Transmitter
  tribTx : Vector Transmitter 8
  deriving DecidableEq, Repr

/-! ## Cell store (chapter 2) -/

/-- The trunk tag and next index of a message in flight on the trunk; present while the head-started flag is set (section 2.4). -/
structure HeadMessage where
  tag : Tag
  next : Index
  deriving DecidableEq, Repr

/-- Uplink queue Un, oldest cell first, with its message bookkeeping; the head-started flag is set when `head` is present (section 2.4). -/
structure UpQueue where
  cells : List Cell
  complete : Nat
  head : Option HeadMessage
  deriving DecidableEq, Repr

/-- The number of buffers on the free list and the sixteen data queues (R17, R18). -/
structure CellStore where
  free : Nat
  up : Vector UpQueue 8
  down : Vector (List Cell) 8
  deriving DecidableEq, Repr

/-! ## Tributary ports (chapter 3) -/

/-- An entry of the port table (R35). -/
structure PortEntry where
  enable : Bool
  upFloor : Nat
  upCeiling : Nat
  downFloor : Nat
  downCeiling : Nat
  deriving DecidableEq, Repr

/-- The ingress record of a port, its latched items present in OPEN only (section 3.2). -/
inductive Ingress where
  | idle
  | opened (tag : Tag) (channel : Channel) (limit : Nat) (admitted : Nat) (next : Index)
  | discarding
  deriving DecidableEq, Repr

/-- The port table, each port's record of whether its receiver is LOCKED (R36), and the ingress records. -/
structure Ports where
  table : Vector PortEntry 8
  rxLocked : Vector Bool 8
  ingress : Vector Ingress 8
  deriving DecidableEq, Repr

/-! ## Plan store (chapter 4) -/

/-- What a slot belongs to (R56). -/
inductive Owner where
  | trib (n : Trib)
  | management
  | openSlot
  deriving DecidableEq, Repr

/-- A plan's entry for one tributary (R56). -/
structure PlanEntry where
  rank : Fin 8
  borrow : Bool
  tagBase : Tag
  limit : Nat
  deriving DecidableEq, Repr

/-- One complete set of timetable settings (R56). -/
structure Plan where
  length : Nat
  slots : Vector Owner 256
  entries : Vector PlanEntry 8
  express : Option Trib
  overtake : Bool
  deriving DecidableEq, Repr

/-- The mode of a switch, with the window of a trial (R71). -/
inductive SwitchMode where
  | firm
  | trial (window : BitVec 16)
  deriving DecidableEq, Repr

/-- The switch state and the further items present in it (section 4.7). -/
inductive SwitchState where
  | steady
  | pending (target : PlanId) (mode : SwitchMode)
  | trial (remaining : BitVec 16) (fallback : PlanId)
  deriving DecidableEq, Repr

/-- The two plans, the selectors and the switch state. -/
structure PlanStore where
  plan : Vector Plan 2
  run : PlanId
  edit : PlanId
  switch : SwitchState
  deriving DecidableEq, Repr

/-! ## Slot scheduler (chapter 5) -/

/-- Which blocks have still to take the boundary that follows slot L-1 (R82): the scheduler itself, the plan store, the notice list and
the survey. -/
structure BoundaryDue where
  scheduler : Bool
  plan : Bool
  notices : Bool
  survey : Bool
  deriving DecidableEq, Repr

/-- An abandon cell still owed to the trunk peer (section 5.4). -/
structure AbandonEntry where
  trib : Trib
  tag : Tag
  next : Index
  deriving DecidableEq, Repr

/-- The slot position, the cycle count, the boundary in delivery, the borrow stack top first and the abandon list oldest first.
The manual names the cycle count among the scheduler's state (00_scope.md, Block diagram) and reads it nowhere; here it counts the
boundaries delivered since hard reset (notes/assumptions/7.md). -/
structure Scheduler where
  position : Nat
  cycle : Nat
  due : BoundaryDue
  borrow : List Trib
  abandon : List AbandonEntry
  deriving DecidableEq, Repr

/-! ## Channel map (chapter 6) -/

/-- The plan mask of a channel entry (R109). -/
inductive PlanMask where
  | none
  | p0
  | p1
  | both
  deriving DecidableEq, Repr

/-- The current part of a channel entry (R111).
OPEN has the delivered flag set; DISCARDING of an active message has its latched items and a flag of either value; DISCARDING of an
inactive message has no latched items and the flag clear; IDLE has none and the flag clear. -/
inductive Current where
  | idle
  | opened (trib : Trib) (channel : Channel) (next : Index)
  | discarding (trib : Trib) (channel : Channel) (next : Index) (delivered : Bool)
  | discardingInactive
  deriving DecidableEq, Repr

/-- A channel entry: configured part and current part (section 6.2). -/
structure ChannelEntry where
  mask : PlanMask
  trib : Trib
  channel : Channel
  current : Current
  deriving DecidableEq, Repr

/-- The channel map as the list of the entries that differ from their hard-reset value, by strictly rising tag.
`ChannelMap.get` and `ChannelMap.set` in Machine/Ops.lean read and write it. -/
abbrev ChannelMap := List (Nat × ChannelEntry)

/-! ## Management engine (chapter 7) -/

/-- The eight results of a response (R139). -/
inductive Result where
  | ok
  | unknownKind
  | length
  | range
  | inUse
  | state
  | invalidPlan
  | noRoom
  deriving DecidableEq, Repr

/-- A command taken into the command queue (section 7.1). -/
structure TakenCommand where
  kind : Byte
  seq : Byte
  operands : List Byte
  fill : Fill
  deriving DecidableEq, Repr

/-- A response: what its cell carries (R134, R179). -/
structure Response where
  kind : Byte
  seq : Byte
  result : Result
  repeated : Bool
  data : List Byte
  deriving DecidableEq, Repr

/-- How far the most recently taken command has got (section 7.1). -/
inductive Standing where
  | queued
  | executing
  | completed
  deriving DecidableEq, Repr

/-- The engine: command queue, command in progress, placed responses in placement order, whether one entry of the response queue is
reserved, last taken number with its standing, and stored last response (section 7.1). -/
structure Engine where
  commands : List TakenCommand
  inProgress : Option TakenCommand
  placed : List Response
  reserved : Bool
  lastTaken : Option (Byte × Standing)
  stored : Option Response
  deriving DecidableEq, Repr

/-! ## Notice list (chapter 8) -/

/-- The kinds of notice (section 8.1). -/
inductive NoticeKind where
  | restarted
  | portChange
  | trunkRxChange
  | uplinkDrops
  | downlinkDrops
  | messageCut
  | planSwitched
  | planReverted
  | surveyDone
  | commandOverrun
  | noticesLost
  deriving DecidableEq, Repr

/-- The state of a record, with the repeat timer that only SENT has (section 8.2). -/
inductive NoticeState where
  | waiting
  | sent (timer : Byte)
  deriving DecidableEq, Repr

/-- A record of the notice list; the lost marker is the record of kind NOTICES_LOST (section 8.2). -/
structure NoticeRecord where
  number : Byte
  kind : NoticeKind
  subject : Byte
  count : Byte
  detail : Byte
  state : NoticeState
  deriving DecidableEq, Repr

/-- The records in creation order, the number counter and the two options (section 8.2, R158). -/
structure NoticeList where
  records : List NoticeRecord
  counter : Byte
  mask : BitVec 16
  interval : Byte
  deriving DecidableEq, Repr

/-! ## Counter bank and slot survey (chapter 9) -/

/-- The Uplink group of one tributary, in position order (R163). -/
structure UplinkCounters where
  admitted : BitVec 32
  queueFull : BitVec 32
  noBuffer : BitVec 32
  whileDisabled : BitVec 32
  malformed : BitVec 32
  messagesCut : BitVec 32
  abandonSent : BitVec 32
  deriving DecidableEq, Repr

/-- The Downlink group of one tributary, in position order (R164). -/
structure DownlinkCounters where
  admitted : BitVec 32
  queueFull : BitVec 32
  noBuffer : BitVec 32
  portNotUp : BitVec 32
  sentToTributary : BitVec 32
  conversions : BitVec 32
  discarded : BitVec 32
  deriving DecidableEq, Repr

/-- The Trunk receive group, in position order (R165). -/
structure TrunkCounters where
  badHeader : BitVec 32
  malformed : BitVec 32
  inactive : BitVec 32
  unassignable : BitVec 32
  continuation : BitVec 32
  lockLosses : BitVec 32
  managementMalformed : BitVec 32
  deriving DecidableEq, Repr

/-- The Management group, in position order (R166). -/
structure ManagementCounters where
  commandsTaken : BitVec 32
  repeatsSent : BitVec 32
  duplicatesDropped : BitVec 32
  overruns : BitVec 32
  responsesSent : BitVec 32
  noticesSent : BitVec 32
  noticesLost : BitVec 32
  deriving DecidableEq, Repr

/-- The 126 counters in 18 group sets (R162). -/
structure CounterBank where
  up : Vector UplinkCounters 8
  down : Vector DownlinkCounters 8
  trunk : TrunkCounters
  management : ManagementCounters
  deriving DecidableEq, Repr

/-- The state of the survey (section 9.3). -/
inductive SurveyState where
  | idle
  | armed
  | running
  | done
  deriving DecidableEq, Repr

/-- The survey: state, window, the twenty counters of its record and its three flags (section 9.3). -/
structure Survey where
  state : SurveyState
  window : BitVec 16
  own : Vector (BitVec 16) 8
  borrowed : Vector (BitVec 16) 8
  idle : BitVec 16
  management : BitVec 16
  abandon : BitVec 16
  cycles : BitVec 16
  planSwitched : Bool
  lockLost : Bool
  stopped : Bool
  deriving DecidableEq, Repr

/-! ## Reset pins -/

/-- How a hard reset began; it becomes the detail of the RESTARTED record (R181). -/
inductive ResetCause where
  | powerOn
  | resetPin
  deriving DecidableEq, Repr

/-- The hard reset in progress, if one is, the level of RESET_N (true is high), and whether supplies and reference clock are stable (R181). -/
structure Pins where
  hardReset : Option ResetCause
  resetNHigh : Bool
  suppliesStable : Bool
  deriving DecidableEq, Repr

/-! ## The machine -/

/-- The whole state: the queue of commands waiting to be taken, first in first out, and the blocks. -/
structure State where
  pending : List Instr
  pins : Pins
  links : Links
  store : CellStore
  ports : Ports
  plans : PlanStore
  scheduler : Scheduler
  channels : ChannelMap
  engine : Engine
  notices : NoticeList
  bank : CounterBank
  survey : Survey
  deriving DecidableEq, Repr

/-- The faults of the machine: none.
The manual describes no event that stops the part, so no step raises one; having none is safe, since a step that cannot stop hides
nothing (notes/assumptions/1.md). -/
inductive Fault where
  deriving DecidableEq, Repr

/-- The refusals of the machine. -/
inductive Refusal where
  /-- Raised by an arm of `exec` whose command has no meaning yet; safe, since no claim about a next state follows from it.
  No arm raises it now. -/
  | notModelled (mnemonic : String)
  deriving DecidableEq, Repr

/-! ## The state after reset -/

/-- A receiver at the end of hard reset: SEEK, count 0, candidate at the first byte recovered (R16). -/
def Receiver.reset : Receiver := { delineation := .seek, count := 0, position := 0 }

/-- An empty uplink queue with clear bookkeeping (R34). -/
def UpQueue.empty : UpQueue := { cells := [], complete := 0, head := none }

/-- A port table entry after hard reset (R35, R54). -/
def PortEntry.reset : PortEntry :=
  { enable := false, upFloor := 0, upCeiling := 32, downFloor := 0, downCeiling := 32 }

/-- The boot plan's entry for Tn (R57). -/
def PlanEntry.boot (n : Trib) : PlanEntry :=
  { rank := n, borrow := true, tagBase := BitVec.ofNat 10 (64 * n.val), limit := 64 }

/-- The boot plan (R57). -/
def Plan.boot : Plan :=
  { length := 8
    slots := (Vector.replicate 256 Owner.openSlot).set 0 .management
    entries := #v[.boot 0, .boot 1, .boot 2, .boot 3, .boot 4, .boot 5, .boot 6, .boot 7]
    express := none
    overtake := false }

/-- No boundary is in delivery. -/
def BoundaryDue.none : BoundaryDue :=
  { scheduler := false, plan := false, notices := false, survey := false }

/-- A channel entry after hard reset (R126). -/
def ChannelEntry.reset : ChannelEntry :=
  { mask := .none, trib := 0, channel := 0, current := .idle }

/-- An Uplink group of zeros. -/
def UplinkCounters.zero : UplinkCounters :=
  { admitted := 0, queueFull := 0, noBuffer := 0, whileDisabled := 0, malformed := 0, messagesCut := 0, abandonSent := 0 }

/-- A Downlink group of zeros. -/
def DownlinkCounters.zero : DownlinkCounters :=
  { admitted := 0, queueFull := 0, noBuffer := 0, portNotUp := 0, sentToTributary := 0, conversions := 0, discarded := 0 }

/-- A Trunk receive group of zeros. -/
def TrunkCounters.zero : TrunkCounters :=
  { badHeader := 0, malformed := 0, inactive := 0, unassignable := 0, continuation := 0, lockLosses := 0, managementMalformed := 0 }

/-- A Management group of zeros. -/
def ManagementCounters.zero : ManagementCounters :=
  { commandsTaken := 0, repeatsSent := 0, duplicatesDropped := 0, overruns := 0, responsesSent := 0, noticesSent := 0, noticesLost := 0 }

/-- The survey IDLE with its record and window zero (R176). -/
def Survey.reset : Survey :=
  { state := .idle, window := 0, own := Vector.replicate 8 0, borrowed := Vector.replicate 8 0, idle := 0, management := 0, abandon := 0,
    cycles := 0, planSwitched := false, lockLost := false, stopped := false }

/-- The detail of the RESTARTED record a hard reset leaves (R160). -/
def ResetCause.detail : ResetCause → Byte
  | .powerOn => 1
  | .resetPin => 2

/-- The notice list a hard reset leaves: RESTARTED as record 1, the counter at 2, every kind enabled, interval 32 (R158, R160). -/
def NoticeList.reset (cause : ResetCause) : NoticeList :=
  { records := [{ number := 1, kind := .restarted, subject := 0, count := 1, detail := cause.detail, state := .waiting }]
    counter := 2
    mask := 0x87FE
    interval := 32 }

/-- The links at the end of hard reset, with the signal each line then carries (R16). -/
def Links.reset (trunkSignal : Bool) (tribSignal : Vector Bool 8) : Links :=
  { trunkRx := .reset
    tribRx := Vector.replicate 8 .reset
    trunkSignal := trunkSignal
    tribSignal := tribSignal
    trunkTx := .boundary
    tribTx := Vector.replicate 8 .boundary }

/-- The state at the end of a hard reset that began by `cause`, over lines whose signal is as given and with the commands given still
waiting; every block has its starting state (R16, R34, R54, R57, R105, R126, R146, R160, R162, R176). -/
def State.afterHardReset (cause : ResetCause) (trunkSignal : Bool) (tribSignal : Vector Bool 8) (waiting : List Instr) : State :=
  { pending := waiting
    pins := { hardReset := none, resetNHigh := true, suppliesStable := true }
    links := .reset trunkSignal tribSignal
    store := { free := Config.buffers, up := Vector.replicate 8 .empty, down := Vector.replicate 8 [] }
    ports := { table := Vector.replicate 8 .reset, rxLocked := Vector.replicate 8 false, ingress := Vector.replicate 8 .idle }
    plans := { plan := Vector.replicate 2 .boot, run := 0, edit := 1, switch := .steady }
    scheduler := { position := 0, cycle := 0, due := .none, borrow := [], abandon := [] }
    channels := []
    engine := { commands := [], inProgress := none, placed := [], reserved := false, lastTaken := none, stored := none }
    notices := .reset cause
    bank := { up := Vector.replicate 8 .zero, down := Vector.replicate 8 .zero, trunk := .zero, management := .zero }
    survey := .reset }

/-- The machine right after reset: a hard reset by power-on has ended, every line carries signal, and no command waits
(notes/assumptions/3.md, notes/assumptions/4.md). -/
def State.reset : State := .afterHardReset .powerOn true (Vector.replicate 8 true) []

end Sys2Proof.Machine
end

