-- ==== Sys2Proof/Machine/Operands.lean ====
section
/-! DEFINITION. The layouts of chapter 10: cell headers and their check, the code tables, the operands of commands and the payloads of
responses and notices. -/

namespace Sys2Proof.Machine

/-! ## The header check (R2, R177) -/

/-- One bit step of the check: shift left, and XOR with 0x2F when the bit shifted out was 1 (section 10.1). -/
def hcsStep (r : Byte) : Byte := if r.msb then (r <<< 1) ^^^ 0x2F#8 else r <<< 1

/-- One byte fed into the check, bit 7 first (R2). -/
def hcsFeed (r b : Byte) : Byte :=
  hcsStep (hcsStep (hcsStep (hcsStep (hcsStep (hcsStep (hcsStep (hcsStep (r ^^^ b))))))))

/-- The HCS of three header bytes, the register starting at 0x00 (R2). -/
def hcs (b0 b1 b2 : Byte) : Byte := hcsFeed (hcsFeed (hcsFeed 0 b0) b1) b2

/-- Byte `i` of a list of bytes. -/
def byteAt (bytes : List Byte) (i : Nat) : Byte := bytes.getD i 0

/-- A header is valid when the check over its first three bytes equals its fourth (R2). -/
def headerValid (bytes : List Byte) : Bool :=
  hcs (byteAt bytes 0) (byteAt bytes 1) (byteAt bytes 2) == byteAt bytes 3

/-! ## The header layout (section 10.1) -/

/-- The position codes. -/
def Position.code : Position → BitVec 2
  | .middle => 0
  | .last => 1
  | .first => 2
  | .sole => 3

/-- The position a code stands for. -/
def Position.ofCode (b : BitVec 2) : Position :=
  if b = 0 then .middle else if b = 1 then .last else if b = 2 then .first else .sole

/-- Header byte 0: tag bits 9..2. -/
def Cell.byte0 (c : Cell) : Byte := c.tag.extractLsb' 2 8

/-- Header byte 1: tag bits 1..0, position, X, fill bits 5..3. -/
def Cell.byte1 (c : Cell) : Byte :=
  c.tag.extractLsb' 0 2 ++ c.position.code ++ BitVec.ofBool c.abandon ++ c.fill.extractLsb' 3 3

/-- Header byte 2: fill bits 2..0, index. -/
def Cell.byte2 (c : Cell) : Byte := c.fill.extractLsb' 0 3 ++ c.index

/-- The bytes a cell on the line carries information in: the first `fill` of the payload, which has 32 (R1). -/
def meaningful (fill : Fill) (payload : List Byte) : List Byte := (payload.take Config.payloadBytes).take fill.toNat

/-- The payload on the line: the meaningful bytes, then zeros up to 32 (R1, R13). -/
def padPayload (payload : List Byte) : List Byte :=
  payload ++ List.replicate (Config.payloadBytes - payload.length) 0

/-- The 36 bytes a transmitter sends for a cell: header, check computed afresh, payload with zeros from fill on (R13, R177). -/
def Cell.wire (c : Cell) : List Byte :=
  [c.byte0, c.byte1, c.byte2, hcs c.byte0 c.byte1 c.byte2] ++ padPayload (meaningful c.fill c.payload)

/-- The cell 36 received bytes carry: the fields of the header by its layout and the meaningful payload bytes (R1, R177). -/
def decodeCell (bytes : List Byte) : Cell :=
  let b0 := byteAt bytes 0
  let b1 := byteAt bytes 1
  let b2 := byteAt bytes 2
  let fill : Fill := b1.extractLsb' 0 3 ++ b2.extractLsb' 5 3
  { tag := b0 ++ b1.extractLsb' 6 2
    position := Position.ofCode (b1.extractLsb' 4 2)
    abandon := b1.getLsbD 3
    fill := fill
    index := b2.extractLsb' 0 5
    payload := meaningful fill (bytes.drop 4) }

/-- The tag of management cells (R7). -/
def managementTag : Tag := 1022

/-- The tag of idle cells (R6). -/
def idleTag : Tag := 1023

/-- The idle cell every transmitter of the part sends when it has no cell to send (R6). -/
def idleCell : Cell :=
  { tag := idleTag, position := .sole, abandon := false, fill := 0, index := 0, payload := [] }

/-! ## Code tables (section 10.4) -/

/-- The result codes. -/
def Result.code : Result → Byte
  | .ok => 0
  | .unknownKind => 1
  | .length => 2
  | .range => 3
  | .inUse => 4
  | .state => 5
  | .invalidPlan => 6
  | .noRoom => 7

/-- The slot owner codes. -/
def Owner.code : Owner → Byte
  | .trib n => byteOf n.val
  | .management => 8
  | .openSlot => 9

/-- The owner a code stands for; codes 10..255 name none. -/
def Owner.ofByte (b : Byte) : Option Owner :=
  if h : b.toNat < 8 then some (.trib ⟨b.toNat, h⟩)
  else if b = 8 then some .management
  else if b = 9 then some .openSlot
  else none

/-- The owners a list of codes stands for, if each code names one. -/
def ownersOf : List Byte → Option (List Owner)
  | [] => some []
  | b :: bs =>
    match Owner.ofByte b, ownersOf bs with
    | some o, some os => some (o :: os)
    | _, _ => none

/-- The notice kind codes, which are also the bits of the kind mask. -/
def NoticeKind.code : NoticeKind → Nat
  | .restarted => 1
  | .portChange => 2
  | .trunkRxChange => 3
  | .uplinkDrops => 4
  | .downlinkDrops => 5
  | .messageCut => 6
  | .planSwitched => 7
  | .planReverted => 8
  | .surveyDone => 9
  | .commandOverrun => 10
  | .noticesLost => 15

/-- The receiver state codes. -/
def Delineation.code : Delineation → Byte
  | .seek => 0
  | .confirm => 1
  | .locked => 2

/-- The ingress state codes. -/
def Ingress.code : Ingress → Byte
  | .idle => 0
  | .opened _ _ _ _ _ => 1
  | .discarding => 2

/-- The channel entry state codes. -/
def Current.code : Current → Byte
  | .idle => 0
  | .opened _ _ _ => 1
  | .discarding _ _ _ _ => 2
  | .discardingInactive => 2

/-- The switch state codes. -/
def SwitchState.code : SwitchState → Byte
  | .steady => 0
  | .pending _ _ => 1
  | .trial _ _ => 2

/-- The SWITCH PLAN mode codes. -/
def SwitchMode.code : SwitchMode → Byte
  | .firm => 0
  | .trial _ => 1

/-- The plan mask codes. -/
def PlanMask.code : PlanMask → Byte
  | .none => 0
  | .p0 => 1
  | .p1 => 2
  | .both => 3

/-- The plan mask a code stands for; codes above 3 name none. -/
def PlanMask.ofByte (b : Byte) : Option PlanMask :=
  if b = 0 then some .none
  else if b = 1 then some .p0
  else if b = 2 then some .p1
  else if b = 3 then some .both
  else Option.none

/-- The survey state codes. -/
def SurveyState.code : SurveyState → Byte
  | .idle => 0
  | .armed => 1
  | .running => 2
  | .done => 3

/-- The byte that stands for an absent value (section 10.4). -/
def absentByte : Byte := 0xFF

/-- The number of a tributary as a byte. -/
def tribByte (n : Trib) : Byte := byteOf n.val

/-- The number of a plan as a byte. -/
def planByte (p : PlanId) : Byte := byteOf p.val

/-- An express tributary as a byte, 0xFF for none (R66, R70). -/
def expressByte : Option Trib → Byte
  | some n => tribByte n
  | none => absentByte

/-! ## Operands (R178) -/

/-- A two-byte operand from byte `i` on, more significant byte first (R178). -/
def wordAt (operands : List Byte) (i : Nat) : Nat :=
  (byteAt operands i).toNat * 256 + (byteAt operands (i + 1)).toNat

/-- A tributary operand, if it is 0..7. -/
def tribOf (b : Byte) : Option Trib := if h : b.toNat < 8 then some ⟨b.toNat, h⟩ else none

/-- A plan operand, if it is 0 or 1. -/
def planOf (b : Byte) : Option PlanId := if h : b.toNat < 2 then some ⟨b.toNat, h⟩ else none

/-- A flag operand, if it is 0 or 1. -/
def flagOf (b : Byte) : Option Bool := if b = 0 then some false else if b = 1 then some true else none

/-- An express operand: a tributary 0..7, or 0xFF for none (R66). -/
def expressOf (b : Byte) : Option (Option Trib) :=
  if b = absentByte then some none else (tribOf b).map some

/-- The commands of section 10.3. -/
inductive CommandKind where
  | echo
  | identify
  | readStatus
  | restart
  | selectEditPlan
  | writeSlots
  | setCycleLength
  | writeTributaryEntry
  | setPlanOptions
  | copyPlan
  | readSlots
  | readTributaryEntry
  | readPlanOptions
  | switchPlan
  | confirmPlan
  | writePort
  | readPort
  | flushPort
  | writeChannels
  | readChannel
  | readCounters
  | clearCounters
  | startSurvey
  | stopSurvey
  | readSurvey
  | ackNotice
  | setNoticeOptions
  deriving DecidableEq, Repr

/-- The commands in the order of section 10.3. -/
def allCommandKinds : List CommandKind :=
  [.echo, .identify, .readStatus, .restart, .selectEditPlan, .writeSlots, .setCycleLength, .writeTributaryEntry, .setPlanOptions,
    .copyPlan, .readSlots, .readTributaryEntry, .readPlanOptions, .switchPlan, .confirmPlan, .writePort, .readPort, .flushPort,
    .writeChannels, .readChannel, .readCounters, .clearCounters, .startSurvey, .stopSurvey, .readSurvey, .ackNotice, .setNoticeOptions]

/-- The kind byte of each command (section 10.3). -/
def kindCode : CommandKind → Byte
  | .echo => 0x01
  | .identify => 0x02
  | .readStatus => 0x03
  | .restart => 0x04
  | .selectEditPlan => 0x10
  | .writeSlots => 0x11
  | .setCycleLength => 0x12
  | .writeTributaryEntry => 0x13
  | .setPlanOptions => 0x14
  | .copyPlan => 0x15
  | .readSlots => 0x16
  | .readTributaryEntry => 0x17
  | .readPlanOptions => 0x18
  | .switchPlan => 0x19
  | .confirmPlan => 0x1A
  | .writePort => 0x20
  | .readPort => 0x21
  | .flushPort => 0x22
  | .writeChannels => 0x28
  | .readChannel => 0x29
  | .readCounters => 0x30
  | .clearCounters => 0x31
  | .startSurvey => 0x38
  | .stopSurvey => 0x39
  | .readSurvey => 0x3A
  | .ackNotice => 0x40
  | .setNoticeOptions => 0x41

/-- Whether a kind byte is the kind of some command; every other value is unknown (R133, section 10.3). -/
def kindKnown (b : Byte) : Bool := allCommandKinds.any fun k => kindCode k == b

/-- The operand bytes the LENGTH check requires; WRITE SLOTS needs 2 and as many as its count operand says (R63, section 10.3). -/
def operandsNeeded (k : CommandKind) (operands : List Byte) : Nat :=
  match k with
  | .echo => 0
  | .identify => 0
  | .readStatus => 0
  | .restart => 0
  | .selectEditPlan => 1
  | .writeSlots => 2 + (byteAt operands 1).toNat
  | .setCycleLength => 2
  | .writeTributaryEntry => 6
  | .setPlanOptions => 2
  | .copyPlan => 0
  | .readSlots => 3
  | .readTributaryEntry => 2
  | .readPlanOptions => 1
  | .switchPlan => 4
  | .confirmPlan => 0
  | .writePort => 6
  | .readPort => 1
  | .flushPort => 2
  | .writeChannels => 6
  | .readChannel => 2
  | .readCounters => 2
  | .clearCounters => 2
  | .startSurvey => 2
  | .stopSurvey => 0
  | .readSurvey => 1
  | .ackNotice => 2
  | .setNoticeOptions => 3

/-! ## Management payloads (section 10.2) -/

/-- The payload of a response: kind with bit 7 inverted, sequence number, result code, flags, data (R179). -/
def Response.payload (r : Response) : List Byte :=
  [r.kind ^^^ 0x80#8, r.seq, r.result.code, flagByte r.repeated] ++ r.data

/-- A response as a cell: tag 1022, SOLE, X 0, index 0, fill 4 plus its number of data bytes (R89, R139). -/
def Response.cell (r : Response) : Cell :=
  { tag := managementTag, position := .sole, abandon := false, fill := BitVec.ofNat 6 (4 + r.data.length), index := 0, payload := r.payload }

/-- The payload of a notice (R180). -/
def NoticeRecord.payload (r : NoticeRecord) : List Byte :=
  [0xE0, r.number, byteOf r.kind.code, r.subject, r.count, r.detail]

/-- A notice as a cell: tag 1022, SOLE, X 0, index 0, fill 6 (R89). -/
def NoticeRecord.cell (r : NoticeRecord) : Cell :=
  { tag := managementTag, position := .sole, abandon := false, fill := 6, index := 0, payload := r.payload }

/-- An abandon entry as a cell: header-only LAST with X set, on the entry's tag and index (R88). -/
def AbandonEntry.cell (e : AbandonEntry) : Cell :=
  { tag := e.tag, position := .last, abandon := true, fill := 0, index := e.next, payload := [] }

end Sys2Proof.Machine
end

