-- ==== Sys2Proof/Machine/Flags.lean ====
section
/-! DEFINITION. What the manual derives from the state rather than holds: well-formedness of a cell, the state of a port, shortfalls and the
reserve, the verdict on a plan, activity of a channel entry, and eligibility of a notice. -/

namespace Sys2Proof.Machine

/-! ## Cells -/

/-- Whether position, X, fill and index satisfy their line of the table of R5. -/
def Cell.fieldsOk (c : Cell) : Bool :=
  match c.position with
  | .first => !c.abandon && c.fill == 32 && c.index == 0
  | .middle => !c.abandon && c.fill == 32
  | .last => if c.abandon then c.fill == 0 else decide (1 ≤ c.fill.toNat ∧ c.fill.toNat ≤ 32)
  | .sole => !c.abandon && decide (1 ≤ c.fill.toNat ∧ c.fill.toNat ≤ 32) && c.index == 0

/-- Well-formed on a tributary link: the fields of R5 and a tag of 0..63 (R7). -/
def Cell.wellFormedTributary (c : Cell) : Bool := c.fieldsOk && decide (c.tag.toNat < 64)

/-- Well-formed on an assignable trunk tag (R5, R7). -/
def Cell.wellFormedTrunk (c : Cell) : Bool := c.fieldsOk && decide (c.tag.toNat < Config.assignableTags)

/-- A well-formed command: SOLE, X 0, fill 2..32 (R127). -/
def Cell.isCommand (c : Cell) : Bool :=
  c.position == .sole && !c.abandon && decide (2 ≤ c.fill.toNat ∧ c.fill.toNat ≤ 32)

/-- LAST and SOLE end a message (R3). -/
def Cell.isEnd (c : Cell) : Bool := c.position == .last || c.position == .sole

/-- The end cells in a list of queued cells. -/
def countEnds (cells : List Cell) : Nat := (cells.filter Cell.isEnd).length

/-- The cells up to the newest queued LAST or SOLE (R27). -/
def completePart (cells : List Cell) : List Cell := (cells.reverse.dropWhile fun c => !c.isEnd).reverse

/-- The messages with at least one cell in a list of queued cells: one for each end cell, and the open one (R28). -/
def messagesIn (cells : List Cell) : Nat :=
  countEnds cells + (if (completePart cells).length < cells.length then 1 else 0)

/-! ## Port state (R36) -/

/-- The three states of a port. -/
inductive PortState where
  | disabled
  | down
  | up
  deriving DecidableEq, Repr

/-- The port state codes (section 10.4). -/
def PortState.code : PortState → Nat
  | .disabled => 0
  | .down => 1
  | .up => 2

/-- The state of port Tn, from its enable flag and its record of the receiver (R36). -/
def Ports.state (p : Ports) (n : Trib) : PortState :=
  if !p.table[n].enable then .disabled else if p.rxLocked[n] then .up else .down

/-- Port Tn is UP. -/
def Ports.isUp (p : Ports) (n : Trib) : Bool := p.state n == .up

/-- The states of four ports in one byte, two bits each, the first in the least significant bits (R142). -/
def Ports.packed (p : Ports) (a b c d : Trib) : Byte :=
  byteOf ((p.state a).code + 4 * (p.state b).code + 16 * (p.state c).code + 64 * (p.state d).code)

/-! ## Floors, ceilings and the reserve (R19, R20) -/

/-- The shortfall of a queue: how far its length is below its floor (R19). -/
def shortfall (floor length : Nat) : Nat := floor - length

/-- The two shortfalls of the queues of one tributary, its floors given by an entry of the port table. -/
def tribShortfall (e : PortEntry) (st : CellStore) (n : Trib) : Nat :=
  shortfall e.upFloor st.up[n].cells.length + shortfall e.downFloor st.down[n].length

/-- The reserve: the sum of the sixteen shortfalls (R19). -/
def reserveOf (table : Vector PortEntry 8) (st : CellStore) : Nat :=
  (allTribs.map fun n => tribShortfall table[n] st n).sum

/-- The sum of the sixteen floors (R19). -/
def floorSum (table : Vector PortEntry 8) : Nat :=
  (allTribs.map fun n => table[n].upFloor + table[n].downFloor).sum

/-- The reserve as it stands. -/
def State.reserve (s : State) : Nat := reserveOf s.ports.table s.store

/-- What the store answers an offer with (R20, R21). -/
inductive Verdict where
  | admitted
  | queueFull
  | noBuffer
  deriving DecidableEq, Repr

/-- The store's judgement of an offer to a queue: the ceiling test first, then the floor or a buffer beyond the reserve (R20, R21). -/
def judgeOffer (length floor ceiling free reserve : Nat) : Verdict :=
  if ceiling ≤ length then .queueFull
  else if length < floor ∨ reserve < free then .admitted
  else .noBuffer

/-! ## Plans (R60) -/

/-- Why a plan is invalid. -/
inductive InvalidReason where
  | noManagementSlot
  | tagOverlap
  | expressNoBorrow
  deriving DecidableEq, Repr

/-- The reason codes (section 10.4). -/
def InvalidReason.code : InvalidReason → Byte
  | .noManagementSlot => 1
  | .tagOverlap => 2
  | .expressNoBorrow => 3

/-- The owner of slot k of a plan. -/
def Plan.owner (p : Plan) (k : Nat) : Owner := p.slots.toList.getD k .openSlot

/-- Condition 1: a slot among 0..L-1 is owned by MANAGEMENT (R60). -/
def Plan.hasManagementSlot (p : Plan) : Bool := (p.slots.toList.take p.length).any fun o => o == .management

/-- Two tag bases differ by at least 64 (R60). -/
def rangesDisjoint (a b : Tag) : Bool := decide (a.toNat + 64 ≤ b.toNat ∨ b.toNat + 64 ≤ a.toNat)

/-- Condition 2: the eight tag ranges are pairwise disjoint (R60). -/
def Plan.rangesOk (p : Plan) : Bool :=
  allTribs.all fun i => allTribs.all fun j => i == j || rangesDisjoint p.entries[i].tagBase p.entries[j].tagBase

/-- Condition 3: an express tributary, if named, may borrow (R60). -/
def Plan.expressOk (p : Plan) : Bool :=
  match p.express with
  | none => true
  | some n => p.entries[n].borrow

/-- The first condition that fails, if one does (R60). -/
def Plan.fault (p : Plan) : Option InvalidReason :=
  if !p.hasManagementSlot then some .noManagementSlot
  else if !p.rangesOk then some .tagOverlap
  else if !p.expressOk then some .expressNoBorrow
  else none

/-- The running plan (R58). -/
def PlanStore.running (ps : PlanStore) : Plan := ps.plan[ps.run]

/-- A plan write is refused with IN_USE: the edit plan runs, or a trial runs (R61). -/
def PlanStore.frozen (ps : PlanStore) : Bool :=
  ps.edit == ps.run ||
    match ps.switch with
    | .trial _ _ => true
    | .steady => false
    | .pending _ _ => false

/-- The remaining trial cycles, 0 when no trial runs (R74). -/
def PlanStore.remaining (ps : PlanStore) : BitVec 16 :=
  match ps.switch with
  | .trial remaining _ => remaining
  | .steady => 0
  | .pending _ _ => 0

/-! ## Channel map (R109, R111) -/

/-- The plan mask includes a plan (R109). -/
def PlanMask.includes (m : PlanMask) (p : PlanId) : Bool :=
  match m with
  | .none => false
  | .p0 => p == 0
  | .p1 => p == 1
  | .both => true

/-- The latched tributary, where present (R111). -/
def Current.latchedTrib : Current → Option Trib
  | .idle => none
  | .opened n _ _ => some n
  | .discarding n _ _ _ => some n
  | .discardingInactive => none

/-- The latched local channel, where present (R111). -/
def Current.latchedChannel : Current → Option Channel
  | .idle => none
  | .opened _ ch _ => some ch
  | .discarding _ ch _ _ => some ch
  | .discardingInactive => none

/-- The next expected index, where present (R111). -/
def Current.nextIndex : Current → Option Index
  | .idle => none
  | .opened _ _ next => some next
  | .discarding _ _ next _ => some next
  | .discardingInactive => none

/-- The delivered flag (R111). -/
def Current.delivered : Current → Bool
  | .idle => false
  | .opened _ _ _ => true
  | .discarding _ _ _ d => d
  | .discardingInactive => false

/-- What an OPEN entry becomes when its message is given up: DISCARDING, delivered flag kept, index frozen (R119, R120). -/
def Current.giveUp : Current → Current
  | .opened n ch next => .discarding n ch next true
  | .idle => .idle
  | .discarding n ch next d => .discarding n ch next d
  | .discardingInactive => .discardingInactive

/-- The entry is OPEN and latched to Tn. -/
def Current.openFor (n : Trib) : Current → Bool
  | .opened m _ _ => m == n
  | .idle => false
  | .discarding _ _ _ _ => false
  | .discardingInactive => false

/-! ## Engine (R133, R137) -/

/-- Placed responses and reservations together (R137). -/
def Engine.entriesUsed (e : Engine) : Nat := e.placed.length + (if e.reserved then 1 else 0)

/-- The response queue has a free entry (R129, R133). -/
def Engine.room (e : Engine) : Bool := decide (e.entriesUsed < Config.responseDepth)

/-! ## Notices (R147, R153) -/

/-- The kind passes the mask; RESTARTED and NOTICES_LOST cannot be masked (R147, R158). -/
def NoticeList.passes (l : NoticeList) (k : NoticeKind) : Bool :=
  k == .restarted || k == .noticesLost || l.mask.getLsbD k.code

/-- The ordinary records held (R148). -/
def NoticeList.ordinary (l : NoticeList) : Nat := (l.records.filter fun r => r.kind != .noticesLost).length

/-- The lost marker is present (R148). -/
def NoticeList.hasLostMarker (l : NoticeList) : Bool := l.records.any fun r => r.kind == .noticesLost

/-- A record may be offered: WAITING, or SENT with its timer at the interval or beyond (R153). -/
def NoticeRecord.eligible (interval : Byte) (r : NoticeRecord) : Bool :=
  match r.state with
  | .waiting => true
  | .sent timer => decide (interval.toNat ≤ timer.toNat)

end Sys2Proof.Machine
end

