-- ==== Sys2Proof/Machine/Ops.lean ====
section
/-! DEFINITION. The operations the blocks share: counting, posting and clearing notices, reading and writing the channel map, the cell store's
offers, takes, cuts and flushes, and placing responses. -/

namespace Sys2Proof.Machine

/-- An event of the running part: hard reset holds every block, so nothing happens while it lasts (R16). -/
def whileRunning (s : State) (event : State → State) : State :=
  if s.pins.hardReset.isNone then event s else s

/-! ## Counting (R162) -/

/-- A counter event in the Uplink group of Tn. -/
def countUp (n : Trib) (f : UplinkCounters → UplinkCounters) (s : State) : State :=
  { s with bank := { s.bank with up := s.bank.up.set n (f s.bank.up[n]) } }

/-- A counter event in the Downlink group of Tn. -/
def countDown (n : Trib) (f : DownlinkCounters → DownlinkCounters) (s : State) : State :=
  { s with bank := { s.bank with down := s.bank.down.set n (f s.bank.down[n]) } }

/-- A counter event in the Trunk receive group. -/
def countTrunk (f : TrunkCounters → TrunkCounters) (s : State) : State :=
  { s with bank := { s.bank with trunk := f s.bank.trunk } }

/-- A counter event in the Management group. -/
def countManagement (f : ManagementCounters → ManagementCounters) (s : State) : State :=
  { s with bank := { s.bank with management := f s.bank.management } }

/-- Uplink *cells admitted* rises by one. -/
def UplinkCounters.bumpAdmitted (c : UplinkCounters) : UplinkCounters := { c with admitted := c.admitted + 1 }
/-- Uplink *dropped QUEUE_FULL* rises by one. -/
def UplinkCounters.bumpQueueFull (c : UplinkCounters) : UplinkCounters := { c with queueFull := c.queueFull + 1 }
/-- Uplink *dropped NO_BUFFER* rises by one. -/
def UplinkCounters.bumpNoBuffer (c : UplinkCounters) : UplinkCounters := { c with noBuffer := c.noBuffer + 1 }
/-- Uplink *dropped while DISABLED* rises by one. -/
def UplinkCounters.bumpWhileDisabled (c : UplinkCounters) : UplinkCounters := { c with whileDisabled := c.whileDisabled + 1 }
/-- Uplink *malformed cells* rises by one. -/
def UplinkCounters.bumpMalformed (c : UplinkCounters) : UplinkCounters := { c with malformed := c.malformed + 1 }
/-- Uplink *messages cut* rises by a number of messages. -/
def UplinkCounters.addMessagesCut (k : Nat) (c : UplinkCounters) : UplinkCounters :=
  { c with messagesCut := c.messagesCut + BitVec.ofNat 32 k }
/-- Uplink *abandon cells sent* rises by one. -/
def UplinkCounters.bumpAbandonSent (c : UplinkCounters) : UplinkCounters := { c with abandonSent := c.abandonSent + 1 }

/-- Downlink *cells admitted* rises by one. -/
def DownlinkCounters.bumpAdmitted (c : DownlinkCounters) : DownlinkCounters := { c with admitted := c.admitted + 1 }
/-- Downlink *dropped QUEUE_FULL* rises by one. -/
def DownlinkCounters.bumpQueueFull (c : DownlinkCounters) : DownlinkCounters := { c with queueFull := c.queueFull + 1 }
/-- Downlink *dropped NO_BUFFER* rises by one. -/
def DownlinkCounters.bumpNoBuffer (c : DownlinkCounters) : DownlinkCounters := { c with noBuffer := c.noBuffer + 1 }
/-- Downlink *dropped port not UP* rises by one. -/
def DownlinkCounters.bumpPortNotUp (c : DownlinkCounters) : DownlinkCounters := { c with portNotUp := c.portNotUp + 1 }
/-- Downlink *cells sent to tributary* rises by one. -/
def DownlinkCounters.bumpSent (c : DownlinkCounters) : DownlinkCounters := { c with sentToTributary := c.sentToTributary + 1 }
/-- Downlink *LAST+X conversions* rises by one. -/
def DownlinkCounters.bumpConversions (c : DownlinkCounters) : DownlinkCounters := { c with conversions := c.conversions + 1 }
/-- Downlink *messages discarded* rises by a number of messages. -/
def DownlinkCounters.addDiscarded (k : Nat) (c : DownlinkCounters) : DownlinkCounters :=
  { c with discarded := c.discarded + BitVec.ofNat 32 k }

/-- Trunk receive *bad-header cells* rises by one. -/
def TrunkCounters.bumpBadHeader (c : TrunkCounters) : TrunkCounters := { c with badHeader := c.badHeader + 1 }
/-- Trunk receive *malformed cells* rises by one. -/
def TrunkCounters.bumpMalformed (c : TrunkCounters) : TrunkCounters := { c with malformed := c.malformed + 1 }
/-- Trunk receive *inactive-channel cells* rises by one. -/
def TrunkCounters.bumpInactive (c : TrunkCounters) : TrunkCounters := { c with inactive := c.inactive + 1 }
/-- Trunk receive *unassignable-tag cells* rises by one. -/
def TrunkCounters.bumpUnassignable (c : TrunkCounters) : TrunkCounters := { c with unassignable := c.unassignable + 1 }
/-- Trunk receive *continuation errors* rises by one. -/
def TrunkCounters.bumpContinuation (c : TrunkCounters) : TrunkCounters := { c with continuation := c.continuation + 1 }
/-- Trunk receive *lock losses* rises by one. -/
def TrunkCounters.bumpLockLosses (c : TrunkCounters) : TrunkCounters := { c with lockLosses := c.lockLosses + 1 }
/-- Trunk receive *management cells malformed* rises by one. -/
def TrunkCounters.bumpManagementMalformed (c : TrunkCounters) : TrunkCounters :=
  { c with managementMalformed := c.managementMalformed + 1 }

/-- Management *commands taken* rises by one. -/
def ManagementCounters.bumpTaken (c : ManagementCounters) : ManagementCounters := { c with commandsTaken := c.commandsTaken + 1 }
/-- Management *repeats sent* rises by one. -/
def ManagementCounters.bumpRepeats (c : ManagementCounters) : ManagementCounters := { c with repeatsSent := c.repeatsSent + 1 }
/-- Management *duplicates dropped* rises by one. -/
def ManagementCounters.bumpDuplicates (c : ManagementCounters) : ManagementCounters :=
  { c with duplicatesDropped := c.duplicatesDropped + 1 }
/-- Management *overruns* rises by one. -/
def ManagementCounters.bumpOverruns (c : ManagementCounters) : ManagementCounters := { c with overruns := c.overruns + 1 }
/-- Management *responses sent* rises by one. -/
def ManagementCounters.bumpResponses (c : ManagementCounters) : ManagementCounters := { c with responsesSent := c.responsesSent + 1 }
/-- Management *notices sent* rises by one. -/
def ManagementCounters.bumpNotices (c : ManagementCounters) : ManagementCounters := { c with noticesSent := c.noticesSent + 1 }
/-- Management *notices lost* rises by one. -/
def ManagementCounters.bumpLost (c : ManagementCounters) : ManagementCounters := { c with noticesLost := c.noticesLost + 1 }

/-- The seven counters of an Uplink group in position order (R163). -/
def UplinkCounters.values (c : UplinkCounters) : List (BitVec 32) :=
  [c.admitted, c.queueFull, c.noBuffer, c.whileDisabled, c.malformed, c.messagesCut, c.abandonSent]

/-- The seven counters of a Downlink group in position order (R164). -/
def DownlinkCounters.values (c : DownlinkCounters) : List (BitVec 32) :=
  [c.admitted, c.queueFull, c.noBuffer, c.portNotUp, c.sentToTributary, c.conversions, c.discarded]

/-- The seven counters of the Trunk receive group in position order (R165). -/
def TrunkCounters.values (c : TrunkCounters) : List (BitVec 32) :=
  [c.badHeader, c.malformed, c.inactive, c.unassignable, c.continuation, c.lockLosses, c.managementMalformed]

/-- The seven counters of the Management group in position order (R166). -/
def ManagementCounters.values (c : ManagementCounters) : List (BitVec 32) :=
  [c.commandsTaken, c.repeatsSent, c.duplicatesDropped, c.overruns, c.responsesSent, c.noticesSent, c.noticesLost]

/-! ## Notice list (R149 to R151) -/

/-- The number counter moved on by one, from 255 to 1, 0 skipped (R149). -/
def numberAfter (b : Byte) : Byte := if b = 255 then 1 else b + 1

/-- The first number from `b` on that no record holds, tried over at most `fuel` values (R149). -/
def freshNumber (records : List NoticeRecord) : Nat → Byte → Byte
  | 0, b => b
  | fuel + 1, b =>
    if b = 0 ∨ (records.any fun r => r.number == b) = true then freshNumber records fuel (numberAfter b) else b

/-- A new record at the tail of the creation order, numbered from the counter, count 1, WAITING (R149, R150).
A value in use is passed over here, at the creation that would give it, and not when the counter moves on to it, which is the model's choice
(notes/assumptions/22.md). -/
def NoticeList.create (l : NoticeList) (kind : NoticeKind) (subject detail : Byte) : NoticeList :=
  let number := freshNumber l.records 255 l.counter
  { l with
    records := l.records ++ [{ number := number, kind := kind, subject := subject, count := 1, detail := detail, state := .waiting }]
    counter := numberAfter number }

/-- One more event gathered into a record: count up to 255, the new detail, WAITING (R150). -/
def NoticeRecord.gather (detail : Byte) (r : NoticeRecord) : NoticeRecord :=
  { r with count := saturate8 r.count, detail := detail, state := .waiting }

/-- The first record that satisfies a test, changed. -/
def changeFirst (test : NoticeRecord → Bool) (f : NoticeRecord → NoticeRecord) : List NoticeRecord → List NoticeRecord
  | [] => []
  | r :: rs => if test r then f r :: rs else r :: changeFirst test f rs

/-- A record stands for a kind and subject. -/
def NoticeRecord.isFor (kind : NoticeKind) (subject : Byte) (r : NoticeRecord) : Bool := r.kind == kind && r.subject == subject

/-- A posting lost for want of room is recorded in the lost marker (R151). -/
def NoticeList.lose (l : NoticeList) (kind : NoticeKind) : NoticeList :=
  if l.hasLostMarker then
    { l with records := changeFirst (fun r => r.kind == .noticesLost) (NoticeRecord.gather (byteOf kind.code)) l.records }
  else l.create .noticesLost 0 (byteOf kind.code)

/-- A posting: masked, coalesced into its record, made a new record, or lost (R147, R150, R151). -/
def post (kind : NoticeKind) (subject detail : Byte) (s : State) : State :=
  if !s.notices.passes kind then s
  else if s.notices.records.any (NoticeRecord.isFor kind subject) then
    { s with notices :=
      { s.notices with records := changeFirst (NoticeRecord.isFor kind subject) (NoticeRecord.gather detail) s.notices.records } }
  else if s.notices.ordinary < Config.noticeDepth then
    { s with notices := s.notices.create kind subject detail }
  else countManagement .bumpLost { s with notices := s.notices.lose kind }

/-- A posting beside other work of the same step: taken before every posting of that work, or after them (R147, R152). -/
def postBeside (turn : Turn) (posting work : State → State) (s : State) : State :=
  match turn with
  | .first => work (posting s)
  | .last => posting (work s)

/-! ## Channel map (section 6.2) -/

/-- The entry of a tag; a tag not listed has its hard-reset entry (R126). -/
def ChannelMap.get : ChannelMap → Nat → ChannelEntry
  | [], _ => .reset
  | (k, e) :: m, tag => if tag = k then e else ChannelMap.get m tag

/-- An entry listed ahead of a rest, unless it equals the hard-reset entry. -/
def ChannelMap.cons (tag : Nat) (e : ChannelEntry) (m : ChannelMap) : ChannelMap := if e = .reset then m else (tag, e) :: m

/-- The map with the entry of one tag replaced, in canonical form. -/
def ChannelMap.set : ChannelMap → Nat → ChannelEntry → ChannelMap
  | [], tag, e => ChannelMap.cons tag e []
  | (k, d) :: m, tag, e =>
    if tag < k then ChannelMap.cons tag e ((k, d) :: m)
    else if tag = k then ChannelMap.cons tag e m
    else (k, d) :: ChannelMap.set m tag e

/-- The current part of every entry changed at once; an entry IDLE before must stay IDLE. -/
def ChannelMap.changeCurrent (f : Current → Current) : ChannelMap → ChannelMap
  | [] => []
  | (k, e) :: m => ChannelMap.cons k { e with current := f e.current } (ChannelMap.changeCurrent f m)

/-- The canonical form: tags below 1008, strictly rising, no entry equal to the hard-reset entry. -/
def ChannelMap.wfFrom : Nat → ChannelMap → Bool
  | _, [] => true
  | low, (k, e) :: m => decide (low ≤ k ∧ k < Config.assignableTags) && (e != .reset) && ChannelMap.wfFrom (k + 1) m

/-- The canonical form of the whole map. -/
def ChannelMap.wf (m : ChannelMap) : Bool := ChannelMap.wfFrom 0 m

/-- The entries OPEN and latched to Tn. -/
def ChannelMap.openCount (n : Trib) (m : ChannelMap) : Nat := (m.filter fun ke => ke.2.current.openFor n).length

/-- The current part of the entry of a tag replaced. -/
def setCurrent (tag : Tag) (c : Current) (s : State) : State :=
  { s with channels := ChannelMap.set s.channels tag.toNat { ChannelMap.get s.channels tag.toNat with current := c } }

/-- The channel map is told that Tn has left UP or that Dn was flushed: every OPEN entry latched to Tn enters DISCARDING, and each counts
one message discarded (R120). -/
def discardFor (n : Trib) (s : State) : State :=
  countDown n (.addDiscarded (s.channels.openCount n))
    { s with channels := s.channels.changeCurrent fun c => if c.openFor n then c.giveUp else c }

/-- Trunk receive is told of a trunk lock loss: every OPEN entry enters DISCARDING, each counted to its latched tributary (R119).
Entries in DISCARDING are not touched: R118 names a lock loss among what changes them, R119 leaves them, and the model follows R119
(notes/assumptions/21.md). -/
def discardAll (s : State) : State := allTribs.foldl (fun s n => discardFor n s) s

/-! ## Cell store (chapter 2) -/

/-- Uplink queue Un replaced. -/
def setUp (n : Trib) (q : UpQueue) (s : State) : State := { s with store := { s.store with up := s.store.up.set n q } }

/-- Downlink queue Dn replaced. -/
def setDown (n : Trib) (cells : List Cell) (s : State) : State :=
  { s with store := { s.store with down := s.store.down.set n cells } }

/-- Buffers returned to the free list (R17). -/
def freeBuffers (k : Nat) (s : State) : State := { s with store := { s.store with free := s.store.free + k } }

/-- One buffer taken off the free list (R17). -/
def takeBuffer (s : State) : State := { s with store := { s.store with free := s.store.free - 1 } }

/-- The judgement of an offer to Un as the counts stand (R20). -/
def judgeUp (n : Trib) (s : State) : Verdict :=
  judgeOffer s.store.up[n].cells.length s.ports.table[n].upFloor s.ports.table[n].upCeiling s.store.free s.reserve

/-- The judgement of an offer to Dn as the counts stand (R20). -/
def judgeDown (n : Trib) (s : State) : Verdict :=
  judgeOffer s.store.down[n].length s.ports.table[n].downFloor s.ports.table[n].downCeiling s.store.free s.reserve

/-- Un with a cell admitted at its tail; a LAST or SOLE completes a message (R18, R25). -/
def UpQueue.push (q : UpQueue) (c : Cell) : UpQueue :=
  { q with cells := q.cells ++ [c], complete := q.complete + (if c.isEnd then 1 else 0) }

/-- An offer to Un carried out: the cell admitted, or refused, counted and notified (R17, R20, R21). -/
def offerUp (n : Trib) (c : Cell) (s : State) : State :=
  match judgeUp n s with
  | .admitted => countUp n .bumpAdmitted (takeBuffer (setUp n (s.store.up[n].push c) s))
  | .queueFull => post .uplinkDrops (tribByte n) 1 (countUp n .bumpQueueFull s)
  | .noBuffer => post .uplinkDrops (tribByte n) 2 (countUp n .bumpNoBuffer s)

/-- An offer to Dn carried out: the cell admitted, or refused, counted and notified (R17, R20, R21). -/
def offerDown (n : Trib) (c : Cell) (s : State) : State :=
  match judgeDown n s with
  | .admitted => countDown n .bumpAdmitted (takeBuffer (setDown n (s.store.down[n] ++ [c]) s))
  | .queueFull => post .downlinkDrops (tribByte n) 1 (countDown n .bumpQueueFull s)
  | .noBuffer => post .downlinkDrops (tribByte n) 2 (countDown n .bumpNoBuffer s)

/-- The head-message bookkeeping after a cell of Un is taken for the trunk (R26). -/
def headAfter (head : Option HeadMessage) (c : Cell) : Option HeadMessage :=
  match c.position with
  | .first => some { tag := c.tag, next := 1 }
  | .middle => some { tag := (head.map HeadMessage.tag).getD c.tag, next := c.index + 1 }
  | .last => none
  | .sole => none

/-- Un with its head cell taken: the rest, the complete-message count and the bookkeeping (R25, R26). -/
def UpQueue.afterTake (q : UpQueue) (c : Cell) (rest : List Cell) : UpQueue :=
  { cells := rest, complete := q.complete - (if c.isEnd then 1 else 0), head := headAfter q.head c }

/-- The take of the head cell of Un, if it has one (R23). -/
def takeUp (n : Trib) (s : State) : Option (Cell × State) :=
  match s.store.up[n].cells with
  | [] => none
  | c :: rest => some (c, freeBuffers 1 (setUp n (s.store.up[n].afterTake c rest) s))

/-- The take of the head cell of Dn, if it has one (R24). -/
def takeDown (n : Trib) (s : State) : Option (Cell × State) :=
  match s.store.down[n] with
  | [] => none
  | c :: rest => some (c, countDown n .bumpSent (freeBuffers 1 (setDown n rest s)))

/-- An abandon entry joins the tail of the abandon list (R90). -/
def addAbandon (n : Trib) (h : HeadMessage) (s : State) : State :=
  { s with scheduler := { s.scheduler with abandon := s.scheduler.abandon ++ [{ trib := n, tag := h.tag, next := h.next }] } }

/-- A tributary leaves the borrow stack from wherever it stands (R97, R98). -/
def leaveBorrow (n : Trib) (s : State) : State :=
  { s with scheduler := { s.scheduler with borrow := s.scheduler.borrow.filter fun m => m != n } }

/-- The causes of a cut (section 3.3). -/
inductive CutCause where
  | overLength
  | indexGap
  | malformed
  | firstWhileOpen
  | noBuffer
  | linkLost
  | portDisabled
  | flushed
  deriving DecidableEq, Repr

/-- The MESSAGE_CUT details (section 10.4). -/
def CutCause.detail : CutCause → Byte
  | .overLength => 1
  | .indexGap => 2
  | .malformed => 3
  | .firstWhileOpen => 4
  | .noBuffer => 5
  | .linkLost => 6
  | .portDisabled => 7
  | .flushed => 8

/-- Un and the abandon list after the open message of Tn is cut: its queued cells go, and if it had started on the trunk with nothing
complete ahead, its bookkeeping clears and an abandon entry is placed (R27). -/
def cutOpenQueue (n : Trib) (s : State) : State :=
  let q := s.store.up[n]
  let kept := completePart q.cells
  let freed := freeBuffers (q.cells.length - kept.length) s
  if q.complete = 0 then
    match q.head with
    | some h => addAbandon n h (setUp n { cells := kept, complete := 0, head := none } freed)
    | none => setUp n { q with cells := kept } freed
  else setUp n { q with cells := kept } freed

/-- The cut of the open message of Tn, counted and notified (R27). -/
def cutOpen (n : Trib) (cause : CutCause) (s : State) : State :=
  post .messageCut (tribByte n) cause.detail (countUp n (.addMessagesCut 1) (cutOpenQueue n s))

/-- Un and the abandon list after all of Un is cut (R28). -/
def cutAllQueue (n : Trib) (s : State) : State :=
  let q := s.store.up[n]
  let emptied := leaveBorrow n (setUp n .empty (freeBuffers q.cells.length s))
  match q.head with
  | some h => addAbandon n h emptied
  | none => emptied

/-- The messages a cut of all of Un ends: those with a cell removed, and the started head message if it had no cell left (R28). -/
def messagesEnded (q : UpQueue) : Nat :=
  messagesIn q.cells + (if q.head.isSome ∧ q.cells = [] then 1 else 0)

/-- The cut of all of Un, counted by the messages it ends and notified if it ends any (R28). -/
def cutAll (n : Trib) (cause : CutCause) (s : State) : State :=
  let ended := messagesEnded s.store.up[n]
  let cut := countUp n (.addMessagesCut ended) (cutAllQueue n s)
  if ended = 0 then cut else post .messageCut (tribByte n) cause.detail cut

/-- Dn emptied, its buffers returned (R31). -/
def flushDown (n : Trib) (s : State) : State :=
  freeBuffers s.store.down[n].length (setDown n [] s)

/-! ## Ports -/

/-- The ingress record of Tn replaced. -/
def setIngress (n : Trib) (i : Ingress) (s : State) : State :=
  { s with ports := { s.ports with ingress := s.ports.ingress.set n i } }

/-- A change of the port state of Tn is posted with the new state as detail; a report that leaves it unchanged posts nothing (R36). -/
def postStateChange (n : Trib) (before after : PortState) (s : State) : State :=
  if after = before then s else post .portChange (tribByte n) (byteOf after.code) s

/-- The part of leaving UP that empties Dn and tells the channel map (R31, R120). -/
def closeDownlink (n : Trib) (s : State) : State := discardFor n (flushDown n s)

/-! ## Survey reports -/

/-- A switch or revert is reported to the survey (R173). -/
def reportPlanChange (s : State) : State :=
  if s.survey.state = .running then { s with survey := { s.survey with planSwitched := true } } else s

/-- A trunk lock loss is reported to the survey (R173). -/
def reportLockLoss (s : State) : State :=
  if s.survey.state = .running then { s with survey := { s.survey with lockLost := true } } else s

/-! ## Engine (R134) -/

/-- The standing of the last taken command, when that command is the one at work: no other has been taken since exactly when the command
queue behind it is empty (R133, R134; notes/assumptions/9.md). -/
def Engine.setStanding (e : Engine) (st : Standing) : Engine :=
  if e.commands.isEmpty then { e with lastTaken := e.lastTaken.map fun p => (p.1, st) } else e

/-- The completion of a command: its response goes into its reserved entry, which joins the tail of the placement order; it is stored as
the last response; and the engine is free (R134). -/
def complete (c : TakenCommand) (result : Result) (data : List Byte) (s : State) : State :=
  let r : Response := { kind := c.kind, seq := c.seq, result := result, repeated := false, data := data }
  { s with engine :=
    { s.engine.setStanding .completed with
      inProgress := none
      placed := s.engine.placed ++ [r]
      reserved := false
      stored := some r } }

end Sys2Proof.Machine
end

