-- ==== Sys2Proof/Machine/Engine.lean ====
section
/-! DEFINITION. The management engine: intake (R127 to R130), the start of an execution with its general checks (R133), and the engine's own
commands ECHO, IDENTIFY, READ STATUS and RESTART (R140 to R144). -/

namespace Sys2Proof.Machine

/-! ## Intake -/

/-- The command a well-formed command cell carries: kind, sequence number, operand bytes and fill (R127). -/
def commandOf (c : Cell) : TakenCommand :=
  { kind := byteAt c.payload 0, seq := byteAt c.payload 1, operands := c.payload.drop 2, fill := c.fill }

/-- The command repeats the last command taken; number 0 repeats none (R128). -/
def isDuplicate (e : Engine) (c : TakenCommand) : Bool :=
  c.seq != 0 &&
    match e.lastTaken with
    | some (number, _) => number == c.seq
    | none => false

/-- The stored last response, when the last taken command has completed and carries the number given (R128). -/
def repeatable (e : Engine) (seq : Byte) : Option Response :=
  match e.lastTaken, e.stored with
  | some (_, .completed), some r => if r.seq = seq then some r else none
  | _, _ => none

/-- A duplicate: a flagged repeat is placed if the command has completed and an entry is free; it is dropped silently otherwise
(R128, R129). -/
def takeDuplicate (c : TakenCommand) (s : State) : State :=
  match repeatable s.engine c.seq with
  | some r =>
    if s.engine.room then
      { s with engine := { s.engine with placed := s.engine.placed ++ [{ r with repeated := true }] } }
    else countManagement .bumpDuplicates s
  | none => countManagement .bumpDuplicates s

/-- A command that is not a duplicate: taken if the queue holds fewer than 4, an overrun otherwise (R130). -/
def takeCommand (c : TakenCommand) (s : State) : State :=
  if s.engine.commands.length < Config.commandDepth then
    countManagement .bumpTaken
      { s with engine := { s.engine with commands := s.engine.commands ++ [c], lastTaken := some (c.seq, .queued) } }
  else post .commandOverrun 0 c.seq (countManagement .bumpOverruns s)

/-- An arrival on tag 1022 (R127 to R130). -/
def managementArrival (c : Cell) (s : State) : State :=
  if !c.isCommand then countTrunk .bumpManagementMalformed s
  else if isDuplicate s.engine (commandOf c) then takeDuplicate (commandOf c) s
  else takeCommand (commandOf c) s

/-! ## Execution (R133) -/

/-- The command the engine may execute now, with the queue behind it: the oldest, when none is in progress and the response queue has a
free entry (R133). -/
def startable (e : Engine) : Option (TakenCommand × List TakenCommand) :=
  if e.inProgress.isSome || !e.room then none
  else
    match e.commands with
    | [] => none
    | c :: rest => some (c, rest)

/-- The start of an execution: the command leaves the queue, an entry is reserved, and the standing becomes EXECUTING if it is the last
taken (R133). -/
def beginCommand (rest : List TakenCommand) (s : State) : State :=
  { s with engine := { ({ s.engine with commands := rest } : Engine).setStanding .executing with reserved := true } }

/-- The execution of a command of one kind: nothing unless such a command may start; LENGTH if it has too few operand bytes; else the
command's own rule (R133). -/
def runCommand (k : CommandKind) (work : TakenCommand → State → State) (s : State) : State :=
  match startable s.engine with
  | none => s
  | some (c, rest) =>
    if c.kind ≠ kindCode k then s
    else if c.operands.length < operandsNeeded k c.operands then complete c .length [] (beginCommand rest s)
    else work c (beginCommand rest s)

/-- The execution of a command of unknown kind (R133). -/
def runUnknown (s : State) : State :=
  match startable s.engine with
  | none => s
  | some (c, rest) => if kindKnown c.kind then s else complete c .unknownKind [] (beginCommand rest s)

/-! ## The engine's own commands -/

/-- ECHO (R140). -/
def workEcho (c : TakenCommand) (s : State) : State := complete c .ok (c.operands.take 28) s

/-- IDENTIFY (R141). -/
def workIdentify (c : TakenCommand) (s : State) : State :=
  complete c .ok [0x4E, 0x08, 0x18, 0x02, 0x02, 0x00, 0x08, 0x02] s

/-- The borrow stack as eight bytes, top first, 0xFF for each unused place (R104). -/
def borrowBytes (borrow : List Trib) : List Byte :=
  (borrow.map tribByte ++ List.replicate 8 absentByte).take 8

/-- The twenty-six data bytes of READ STATUS (R142). -/
def statusData (s : State) : List Byte :=
  [planByte s.plans.run, planByte s.plans.edit, s.plans.switch.code]
    ++ bytes16 s.plans.remaining.toNat
    ++ [s.links.trunkRx.delineation.code, s.ports.packed 0 1 2 3, s.ports.packed 4 5 6 7]
    ++ bytes16 s.store.free
    ++ bytes16 s.reserve
    ++ borrowBytes s.scheduler.borrow
    ++ [byteOf s.scheduler.abandon.length, s.survey.state.code, byteOf s.notices.ordinary, flagByte s.notices.hasLostMarker,
      byteOf s.engine.commands.length, byteOf s.engine.entriesUsed]

/-- READ STATUS (R142). -/
def workReadStatus (c : TakenCommand) (s : State) : State := complete c .ok (statusData s) s

/-- The store after RESTART: every queue empty, every buffer free (R33). -/
def CellStore.restarted : CellStore :=
  { free := Config.buffers, up := Vector.replicate 8 .empty, down := Vector.replicate 8 [] }

/-- The plan store after RESTART: a trial ends in favour of the running plan (R79). -/
def PlanStore.restarted (ps : PlanStore) : PlanStore :=
  { ps with
    switch :=
      match ps.switch with
      | .trial _ _ => .steady
      | .steady => .steady
      | .pending target mode => .pending target mode }

/-- The notice list after RESTART: cleared, then RESTARTED created with detail 3 (R161). -/
def NoticeList.restarted (l : NoticeList) : NoticeList := ({ l with records := [] } : NoticeList).create .restarted 0 3

/-- The engine after RESTART has discarded the queued commands and placed responses, RESTART being the last taken command (R144). -/
def Engine.restarted (e : Engine) (seq : Byte) : Engine :=
  { e with commands := [], placed := [], lastTaken := some (seq, .executing) }

/-- The effect of RESTART on every block but its own completion (R143). -/
def restartBlocks (seq : Byte) (s : State) : State :=
  { s with
    store := .restarted
    ports := { s.ports with ingress := Vector.replicate 8 .idle }
    plans := s.plans.restarted
    scheduler := { s.scheduler with borrow := [], abandon := [] }
    channels := s.channels.changeCurrent fun _ => .idle
    engine := s.engine.restarted seq
    notices := s.notices.restarted
    survey := .reset }

/-- RESTART (R143, R144). -/
def workRestart (c : TakenCommand) (s : State) : State :=
  complete c .ok [byteOf s.engine.commands.length, byteOf s.engine.placed.length] (restartBlocks c.seq s)

/-! ## The commands -/

/-- ECHO (R140). -/
def execEcho (s : State) : Host.Outcome State Fault Refusal := .next (whileRunning s (runCommand .echo workEcho))

/-- IDENTIFY (R141). -/
def execIdentify (s : State) : Host.Outcome State Fault Refusal := .next (whileRunning s (runCommand .identify workIdentify))

/-- READ STATUS (R142). -/
def execReadStatus (s : State) : Host.Outcome State Fault Refusal := .next (whileRunning s (runCommand .readStatus workReadStatus))

/-- RESTART (R143). -/
def execRestart (s : State) : Host.Outcome State Fault Refusal := .next (whileRunning s (runCommand .restart workRestart))

/-- A command of unknown kind (R133). -/
def execUnknownKind (s : State) : Host.Outcome State Fault Refusal := .next (whileRunning s runUnknown)

end Sys2Proof.Machine
end

