-- ==== Sys2Proof/Machine/PlanCommands.lean ====
section
/-! DEFINITION. The commands of the plan store (chapter 4): selecting, editing, reading and switching plans. -/

namespace Sys2Proof.Machine

/-- A command answered RANGE: nothing changes (R139). -/
def answerRange (c : TakenCommand) (s : State) : State := complete c .range [] s

/-- The run selector and the switch state, the data of IN_USE and of the plan commands' STATE (R61, R71, R76). -/
def planPosition (s : State) : List Byte := [planByte s.plans.run, s.plans.switch.code]

/-- A plan write that has passed its range checks: IN_USE, or the edit plan changed at once and OK (R61). -/
def writeEditPlan (c : TakenCommand) (change : Plan → Plan) (s : State) : State :=
  if s.plans.frozen then complete c .inUse (planPosition s) s
  else
    complete c .ok []
      { s with plans := { s.plans with plan := s.plans.plan.set s.plans.edit (change s.plans.plan[s.plans.edit]) } }

/-- SELECT EDIT PLAN (R62). -/
def workSelectEditPlan (c : TakenCommand) (s : State) : State :=
  match planOf (byteAt c.operands 0) with
  | some p => complete c .ok [] { s with plans := { s.plans with edit := p } }
  | none => answerRange c s

/-- A slot list with owners written from an entry on (R63). -/
def writeOwners : List Owner → Nat → Vector Owner 256 → Vector Owner 256
  | [], _, v => v
  | o :: os, k, v => writeOwners os (k + 1) (v.setIfInBounds k o)

/-- Whether a start and a count name 1..24 entries of a slot list (R63, R68). -/
def slotRangeOk (start count : Nat) : Bool := decide (1 ≤ count ∧ count ≤ 24 ∧ start + count ≤ 256)

/-- WRITE SLOTS (R63). -/
def workWriteSlots (c : TakenCommand) (s : State) : State :=
  let start := (byteAt c.operands 0).toNat
  let count := (byteAt c.operands 1).toNat
  match ownersOf ((c.operands.drop 2).take count) with
  | some owners =>
    if slotRangeOk start count then writeEditPlan c (fun p => { p with slots := writeOwners owners start p.slots }) s
    else answerRange c s
  | none => answerRange c s

/-- SET CYCLE LENGTH (R64). -/
def workSetCycleLength (c : TakenCommand) (s : State) : State :=
  let length := wordAt c.operands 0
  if 8 ≤ length ∧ length ≤ 256 then writeEditPlan c (fun p => { p with length := length }) s else answerRange c s

/-- The entry WRITE TRIBUTARY ENTRY writes, if every value is in its range (R65). -/
def entryOf (operands : List Byte) : Option PlanEntry :=
  let base := wordAt operands 3
  let limit := (byteAt operands 5).toNat
  match tribOf (byteAt operands 1), flagOf (byteAt operands 2) with
  | some rank, some borrow =>
    if base ≤ 944 ∧ 1 ≤ limit ∧ limit ≤ 64 then
      some { rank := rank, borrow := borrow, tagBase := BitVec.ofNat 10 base, limit := limit }
    else none
  | _, _ => none

/-- WRITE TRIBUTARY ENTRY (R65). -/
def workWriteTributaryEntry (c : TakenCommand) (s : State) : State :=
  match tribOf (byteAt c.operands 0), entryOf c.operands with
  | some n, some entry => writeEditPlan c (fun p => { p with entries := p.entries.set n entry }) s
  | _, _ => answerRange c s

/-- SET PLAN OPTIONS (R66). -/
def workSetPlanOptions (c : TakenCommand) (s : State) : State :=
  match expressOf (byteAt c.operands 0), flagOf (byteAt c.operands 1) with
  | some express, some overtake => writeEditPlan c (fun p => { p with express := express, overtake := overtake }) s
  | _, _ => answerRange c s

/-- COPY PLAN (R67). -/
def workCopyPlan (c : TakenCommand) (s : State) : State := writeEditPlan c (fun _ => s.plans.running) s

/-- READ SLOTS (R68). -/
def workReadSlots (c : TakenCommand) (s : State) : State :=
  let start := (byteAt c.operands 1).toNat
  let count := (byteAt c.operands 2).toNat
  match planOf (byteAt c.operands 0) with
  | some p =>
    if slotRangeOk start count then
      complete c .ok (((s.plans.plan[p].slots.toList.drop start).take count).map Owner.code) s
    else answerRange c s
  | none => answerRange c s

/-- The five data bytes of READ TRIBUTARY ENTRY (R69). -/
def entryData (e : PlanEntry) : List Byte :=
  [byteOf e.rank.val, flagByte e.borrow] ++ bytes16 e.tagBase.toNat ++ [byteOf e.limit]

/-- READ TRIBUTARY ENTRY (R69). -/
def workReadTributaryEntry (c : TakenCommand) (s : State) : State :=
  match planOf (byteAt c.operands 0), tribOf (byteAt c.operands 1) with
  | some p, some n => complete c .ok (entryData s.plans.plan[p].entries[n]) s
  | _, _ => answerRange c s

/-- Verdict and reason of a plan (R70). -/
def verdictBytes (p : Plan) : List Byte :=
  match p.fault with
  | none => [0, 0]
  | some reason => [1, reason.code]

/-- The six data bytes of READ PLAN OPTIONS (R70). -/
def optionsData (p : Plan) : List Byte :=
  bytes16 p.length ++ [expressByte p.express, flagByte p.overtake] ++ verdictBytes p

/-- READ PLAN OPTIONS (R70). -/
def workReadPlanOptions (c : TakenCommand) (s : State) : State :=
  match planOf (byteAt c.operands 0) with
  | some p => complete c .ok (optionsData s.plans.plan[p]) s
  | none => answerRange c s

/-- The mode operands of SWITCH PLAN: FIRM whatever the window, or TRIAL with a window above 0 (R71). -/
def modeOf (operands : List Byte) : Option SwitchMode :=
  let window := wordAt operands 2
  match flagOf (byteAt operands 1) with
  | some false => some .firm
  | some true => if window = 0 then none else some (.trial (BitVec.ofNat 16 window))
  | none => none

/-- A trial runs. -/
def SwitchState.isTrial : SwitchState → Bool
  | .steady => false
  | .pending _ _ => false
  | .trial _ _ => true

/-- A SWITCH PLAN that passes its checks: PENDING until the next boundary, the command in progress (R71, R136). -/
def startSwitch (c : TakenCommand) (target : PlanId) (mode : SwitchMode) (s : State) : State :=
  { s with
    plans := { s.plans with switch := .pending target mode }
    engine := { s.engine with inProgress := some c } }

/-- SWITCH PLAN (R71). -/
def workSwitchPlan (c : TakenCommand) (s : State) : State :=
  match planOf (byteAt c.operands 0), modeOf c.operands with
  | some target, some mode =>
    if s.plans.switch.isTrial then complete c .state (planPosition s) s
    else if target = s.plans.run then complete c .state (planPosition s) s
    else
      match s.plans.plan[target].fault with
      | some reason => complete c .invalidPlan [reason.code] s
      | none => startSwitch c target mode s
  | _, _ => answerRange c s

/-- CONFIRM PLAN (R76). -/
def workConfirmPlan (c : TakenCommand) (s : State) : State :=
  match s.plans.switch with
  | .trial remaining _ =>
    complete c .ok (bytes16 remaining.toNat) { s with plans := { s.plans with switch := .steady } }
  | .steady => complete c .state (planPosition s) s
  | .pending _ _ => complete c .state (planPosition s) s

/-! ## The commands -/

/-- SELECT EDIT PLAN (R62). -/
def execSelectEditPlan (s : State) : Host.Outcome State Fault Refusal :=
  .next (whileRunning s (runCommand .selectEditPlan workSelectEditPlan))

/-- WRITE SLOTS (R63). -/
def execWriteSlots (s : State) : Host.Outcome State Fault Refusal := .next (whileRunning s (runCommand .writeSlots workWriteSlots))

/-- SET CYCLE LENGTH (R64). -/
def execSetCycleLength (s : State) : Host.Outcome State Fault Refusal :=
  .next (whileRunning s (runCommand .setCycleLength workSetCycleLength))

/-- WRITE TRIBUTARY ENTRY (R65). -/
def execWriteTributaryEntry (s : State) : Host.Outcome State Fault Refusal :=
  .next (whileRunning s (runCommand .writeTributaryEntry workWriteTributaryEntry))

/-- SET PLAN OPTIONS (R66). -/
def execSetPlanOptions (s : State) : Host.Outcome State Fault Refusal :=
  .next (whileRunning s (runCommand .setPlanOptions workSetPlanOptions))

/-- COPY PLAN (R67). -/
def execCopyPlan (s : State) : Host.Outcome State Fault Refusal := .next (whileRunning s (runCommand .copyPlan workCopyPlan))

/-- READ SLOTS (R68). -/
def execReadSlots (s : State) : Host.Outcome State Fault Refusal := .next (whileRunning s (runCommand .readSlots workReadSlots))

/-- READ TRIBUTARY ENTRY (R69). -/
def execReadTributaryEntry (s : State) : Host.Outcome State Fault Refusal :=
  .next (whileRunning s (runCommand .readTributaryEntry workReadTributaryEntry))

/-- READ PLAN OPTIONS (R70). -/
def execReadPlanOptions (s : State) : Host.Outcome State Fault Refusal :=
  .next (whileRunning s (runCommand .readPlanOptions workReadPlanOptions))

/-- SWITCH PLAN (R71). -/
def execSwitchPlan (s : State) : Host.Outcome State Fault Refusal := .next (whileRunning s (runCommand .switchPlan workSwitchPlan))

/-- CONFIRM PLAN (R76). -/
def execConfirmPlan (s : State) : Host.Outcome State Fault Refusal := .next (whileRunning s (runCommand .confirmPlan workConfirmPlan))

end Sys2Proof.Machine
end

