-- ==== Sys2Proof/Machine/Port.lean ====
section
/-! DEFINITION. The tributary ports: lock reports (R36 to R38) and uplink ingress (R39 to R47). -/

namespace Sys2Proof.Machine

/-- The port's record of its receiver replaced (R36). -/
def setRxLocked (n : Trib) (b : Bool) (s : State) : State :=
  { s with ports := { s.ports with rxLocked := s.ports.rxLocked.set n b } }

/-- The ingress record ended by a lock loss: the open message is cut (R38). -/
def endIngress (n : Trib) (s : State) : State :=
  match s.ports.ingress[n] with
  | .opened _ _ _ _ _ => setIngress n .idle (cutOpen n .linkLost s)
  | .idle => s
  | .discarding => setIngress n .idle s

/-- The port is told of a lock loss of its receiver; an enabled port gives up the open message, flushes Dn, tells the channel map and posts
its new state (R38), before or after the MESSAGE_CUT the store posts for the cut (R147). -/
def portLockLost (turn : Turn) (n : Trib) (s : State) : State :=
  let lost := setRxLocked n false s
  if s.ports.table[n].enable then
    postBeside turn (postStateChange n (s.ports.state n) (lost.ports.state n)) (fun s => closeDownlink n (endIngress n s)) lost
  else lost

/-- The trunk tag a message of Tn on a cell's local channel latches from the running plan (R40).
After a switch that gives the range of one tributary to another, it can be a tag on which a message of the first is still to end; R15 and R40
part there, and the model follows R40 (notes/assumptions/19.md). -/
def latchTag (n : Trib) (c : Cell) (s : State) : Tag := s.plans.running.entries[n].tagBase + c.tag

/-- A FIRST or SOLE judged from IDLE: latched, and offered to Un (R40, R41). -/
def startMessage (n : Trib) (c : Cell) (s : State) : State :=
  let entry := s.plans.running.entries[n]
  let tag := latchTag n c s
  let next : Ingress :=
    if c.position = .first then
      if judgeUp n s = .admitted then .opened tag (c.tag.setWidth 6) entry.limit 1 1 else .discarding
    else .idle
  setIngress n next (offerUp n { c with tag := tag } s)

/-- The ingress state after a message is given up at a cell: IDLE if the cell was its LAST (R43 to R45). -/
def afterGivingUp (c : Cell) : Ingress := if c.position = .last then .idle else .discarding

/-- The open message cut at a MIDDLE or LAST that is dropped (R43 to R45). -/
def giveUpAt (n : Trib) (cause : CutCause) (c : Cell) (s : State) : State := setIngress n (afterGivingUp c) (cutOpen n cause s)

/-- A MIDDLE or LAST in OPEN: continuity, then the length limit, then the offer to Un (R43 to R45).
No event of the store comes between a refusal and the cut it causes, which is the model's choice (R22; notes/assumptions/20.md). -/
def continueMessage (n : Trib) (tag : Tag) (channel : Channel) (limit admitted : Nat) (next : Index) (c : Cell) (s : State) : State :=
  if c.tag.setWidth 6 ≠ channel ∨ c.index ≠ next then giveUpAt n .indexGap c s
  else if limit < admitted + 1 then giveUpAt n .overLength c s
  else if judgeUp n s = .admitted then
    setIngress n (if c.position = .last then .idle else .opened tag channel limit (admitted + 1) (c.index + 1))
      (offerUp n { c with tag := tag } s)
  else giveUpAt n .noBuffer c (offerUp n { c with tag := tag } s)

/-- A malformed cell at an enabled port (R47). -/
def malformedUp (n : Trib) (s : State) : State :=
  let counted := countUp n .bumpMalformed s
  match s.ports.ingress[n] with
  | .opened _ _ _ _ _ => setIngress n .discarding (cutOpen n .malformed counted)
  | .idle => counted
  | .discarding => counted

/-- A well-formed cell in IDLE (R41). -/
def ingressIdle (n : Trib) (c : Cell) (s : State) : State :=
  match c.position with
  | .first => startMessage n c s
  | .sole => startMessage n c s
  | .middle => countUp n .bumpMalformed s
  | .last => countUp n .bumpMalformed s

/-- A well-formed cell in OPEN (R42 to R45); no event of the store comes between the cut of R42 and the offer of the new cell, which is the
model's choice (R22; notes/assumptions/20.md). -/
def ingressOpen (n : Trib) (tag : Tag) (channel : Channel) (limit admitted : Nat) (next : Index) (c : Cell) (s : State) : State :=
  match c.position with
  | .first => startMessage n c (cutOpen n .firstWhileOpen s)
  | .sole => startMessage n c (cutOpen n .firstWhileOpen s)
  | .middle => continueMessage n tag channel limit admitted next c s
  | .last => continueMessage n tag channel limit admitted next c s

/-- A well-formed cell in DISCARDING (R46). -/
def ingressDiscarding (n : Trib) (c : Cell) (s : State) : State :=
  match c.position with
  | .first => startMessage n c s
  | .sole => startMessage n c s
  | .middle => s
  | .last => setIngress n .idle s

/-- An arrival from the Tn receiver, judged against the port state and then against the cell itself (R39). -/
def tribArrival (n : Trib) (c : Cell) (s : State) : State :=
  if !s.ports.table[n].enable then countUp n .bumpWhileDisabled s
  else if !c.wellFormedTributary then malformedUp n s
  else
    match s.ports.ingress[n] with
    | .idle => ingressIdle n c s
    | .opened tag channel limit admitted next => ingressOpen n tag channel limit admitted next c s
    | .discarding => ingressDiscarding n c s

end Sys2Proof.Machine
end

