-- ==== Sys2Proof/Machine/PortCommands.lean ====
section
/-! DEFINITION. The port commands (section 3.5) and the channel commands (section 6.5). -/

namespace Sys2Proof.Machine

/-! ## Ports -/

/-- The eleven data bytes of READ PORT (R49). -/
def portData (n : Trib) (s : State) : List Byte :=
  let e := s.ports.table[n]
  let q := s.store.up[n]
  [byteOf (s.ports.state n).code, flagByte e.enable, byteOf e.upFloor, byteOf e.upCeiling, byteOf e.downFloor, byteOf e.downCeiling,
    byteOf q.cells.length, byteOf s.store.down[n].length, s.ports.ingress[n].code, byteOf q.complete, flagByte q.head.isSome]

/-- READ PORT (R49). -/
def workReadPort (c : TakenCommand) (s : State) : State :=
  match tribOf (byteAt c.operands 0) with
  | some n => complete c .ok (portData n s) s
  | none => answerRange c s

/-- The five values WRITE PORT writes, if each is in its range and no ceiling is below its floor (R50). -/
def portEntryOf (operands : List Byte) : Option PortEntry :=
  let upFloor := (byteAt operands 2).toNat
  let upCeiling := (byteAt operands 3).toNat
  let downFloor := (byteAt operands 4).toNat
  let downCeiling := (byteAt operands 5).toNat
  match flagOf (byteAt operands 1) with
  | some enable =>
    if upFloor ≤ 64 ∧ downFloor ≤ 64 ∧ 1 ≤ upCeiling ∧ upCeiling ≤ 128 ∧ 1 ≤ downCeiling ∧ downCeiling ≤ 128
        ∧ upFloor ≤ upCeiling ∧ downFloor ≤ downCeiling then
      some { enable := enable, upFloor := upFloor, upCeiling := upCeiling, downFloor := downFloor, downCeiling := downCeiling }
    else none
  | none => none

/-- The store's room check on new settings: the sum of floors and the reserve they would give (R32). -/
def roomFor (table : Vector PortEntry 8) (s : State) : Bool :=
  decide (floorSum table ≤ Config.maxFloorSum ∧ reserveOf table s.store ≤ s.store.free)

/-- The effects of a disable on the traffic of Tn: all of Un cut, ingress IDLE, Dn flushed and the channel map told (R51). -/
def disableTraffic (n : Trib) (s : State) : State :=
  closeDownlink n (setIngress n .idle (cutAll n .portDisabled s))

/-- The port table with one entry replaced. -/
def setTable (table : Vector PortEntry 8) (s : State) : State := { s with ports := { s.ports with table := table } }

/-- The four settings and the enable flag take effect (R50, R51); a change of state is posted before or after the MESSAGE_CUT the store
posts for a disable (R147). -/
def applyPortEntry (turn : Turn) (n : Trib) (e : PortEntry) (s : State) : State :=
  let written := setTable (s.ports.table.set n e) s
  let close := if s.ports.table[n].enable && !e.enable then disableTraffic n else id
  postBeside turn (postStateChange n (s.ports.state n) (written.ports.state n)) close written

/-- WRITE PORT (R50). -/
def workWritePort (turn : Turn) (c : TakenCommand) (s : State) : State :=
  match tribOf (byteAt c.operands 0), portEntryOf c.operands with
  | some n, some e =>
    let table := s.ports.table.set n e
    if roomFor table s then complete c .ok [] (applyPortEntry turn n e s)
    else complete c .noRoom (bytes16 s.store.free ++ bytes16 (reserveOf table s.store)) s
  | _, _ => answerRange c s

/-- A flush of the uplink side: all of Un cut, and an open message's rest dropped as it arrives (R52). -/
def flushUplink (n : Trib) (s : State) : State :=
  let cut := cutAll n .flushed s
  match s.ports.ingress[n] with
  | .opened _ _ _ _ _ => setIngress n .discarding cut
  | .idle => cut
  | .discarding => cut

/-- FLUSH PORT (R52). -/
def workFlushPort (c : TakenCommand) (s : State) : State :=
  let side := (byteAt c.operands 1).toNat
  match tribOf (byteAt c.operands 0) with
  | some n =>
    let upLength := byteOf s.store.up[n].cells.length
    let downLength := byteOf s.store.down[n].length
    if side = 1 then complete c .ok [upLength, 0] (flushUplink n s)
    else if side = 2 then complete c .ok [0, downLength] (closeDownlink n s)
    else if side = 3 then complete c .ok [upLength, downLength] (closeDownlink n (flushUplink n s))
    else answerRange c s
  | none => answerRange c s

/-! ## Channels -/

/-- The configured parts of consecutive entries written, the local channel rising with the tag (R123). -/
def writeEntries (trib : Trib) (mask : PlanMask) : Nat → Nat → Nat → ChannelMap → ChannelMap
  | 0, _, _, m => m
  | count + 1, tag, channel, m =>
    writeEntries trib mask count (tag + 1) (channel + 1)
      (m.set tag { m.get tag with mask := mask, trib := trib, channel := BitVec.ofNat 6 channel })

/-- WRITE CHANNELS (R123). -/
def workWriteChannels (c : TakenCommand) (s : State) : State :=
  let tag := wordAt c.operands 0
  let count := (byteAt c.operands 2).toNat
  let channel := (byteAt c.operands 4).toNat
  match tribOf (byteAt c.operands 3), PlanMask.ofByte (byteAt c.operands 5) with
  | some n, some mask =>
    if 1 ≤ count ∧ count ≤ 64 ∧ tag + count ≤ Config.assignableTags ∧ channel + count ≤ 64 then
      complete c .ok [byteOf count] { s with channels := writeEntries n mask count tag channel s.channels }
    else answerRange c s
  | _, _ => answerRange c s

/-- A value that may be absent as a byte, 0xFF when absent. -/
def presentByte (o : Option Nat) : Byte :=
  match o with
  | some k => byteOf k
  | none => absentByte

/-- The nine data bytes of READ CHANNEL (R124). -/
def channelData (run : PlanId) (e : ChannelEntry) : List Byte :=
  [e.mask.code, tribByte e.trib, byteOf e.channel.toNat, flagByte (e.mask.includes run), e.current.code,
    presentByte (e.current.latchedTrib.map fun n => n.val), presentByte (e.current.latchedChannel.map fun ch => ch.toNat),
    presentByte (e.current.nextIndex.map fun i => i.toNat), flagByte e.current.delivered]

/-- READ CHANNEL (R124). -/
def workReadChannel (c : TakenCommand) (s : State) : State :=
  let tag := wordAt c.operands 0
  if tag < Config.assignableTags then complete c .ok (channelData s.plans.run (s.channels.get tag)) s else answerRange c s

/-! ## The commands -/

/-- WRITE PORT (R50). -/
def execWritePort (s : State) (turn : Turn := .last) : Host.Outcome State Fault Refusal :=
  .next (whileRunning s (runCommand .writePort (workWritePort turn)))

/-- READ PORT (R49). -/
def execReadPort (s : State) : Host.Outcome State Fault Refusal := .next (whileRunning s (runCommand .readPort workReadPort))

/-- FLUSH PORT (R52). -/
def execFlushPort (s : State) : Host.Outcome State Fault Refusal := .next (whileRunning s (runCommand .flushPort workFlushPort))

/-- WRITE CHANNELS (R123). -/
def execWriteChannels (s : State) : Host.Outcome State Fault Refusal :=
  .next (whileRunning s (runCommand .writeChannels workWriteChannels))

/-- READ CHANNEL (R124). -/
def execReadChannel (s : State) : Host.Outcome State Fault Refusal := .next (whileRunning s (runCommand .readChannel workReadChannel))

end Sys2Proof.Machine
end

