-- ==== Sys2Proof/Machine/Channel.lean ====
section
/-! DEFINITION. Trunk receive and the channel map: sorting arrivals (R107, R108) and following downlink messages (R110 to R118). -/

namespace Sys2Proof.Machine

/-- The LAST+X conversion of a given-up message: LAST, X 1, fill 0, the frozen index, on the latched local channel (R117). -/
def conversion (channel : Channel) (next : Index) : Cell :=
  { tag := channel.setWidth 10, position := .last, abandon := true, fill := 0, index := next, payload := [] }

/-- A conversion offered to the latched Dn if its port is UP, and dropped and counted if not (R117). -/
def writeConversion (n : Trib) (channel : Channel) (next : Index) (s : State) : State :=
  if s.ports.isUp n then
    if judgeDown n s = .admitted then countDown n .bumpConversions (offerDown n (conversion channel next) s)
    else offerDown n (conversion channel next) s
  else countDown n .bumpPortNotUp s

/-- A LAST taken in DISCARDING ends the given-up message (R117). -/
def closeGivenUp (tag : Tag) (s : State) : State :=
  match (s.channels.get tag.toNat).current with
  | .discarding n channel next true => setCurrent tag .idle (writeConversion n channel next s)
  | .discarding _ _ _ false => setCurrent tag .idle s
  | .discardingInactive => setCurrent tag .idle s
  | .idle => s
  | .opened _ _ _ => s

/-- An OPEN message given up at a cell: DISCARDING, delivered flag kept, index frozen, one message discarded (R108, R115, R116). -/
def giveUpDown (tag : Tag) (n : Trib) (channel : Channel) (next : Index) (s : State) : State :=
  countDown n (.addDiscarded 1) (setCurrent tag (.discarding n channel next true) s)

/-- A FIRST or SOLE taken in IDLE: activity, destination, admission (R112). -/
def startDown (tag : Tag) (c : Cell) (s : State) : State :=
  let e := s.channels.get tag.toNat
  let isFirst : Bool := c.position == .first
  let notCarried (s : State) : State :=
    if isFirst then countDown e.trib (.addDiscarded 1) (setCurrent tag (.discarding e.trib e.channel 1 false) s) else s
  if !e.mask.includes s.plans.run then
    let s := countTrunk .bumpInactive s
    if isFirst then setCurrent tag .discardingInactive s else s
  else if !s.ports.isUp e.trib then notCarried (countDown e.trib .bumpPortNotUp s)
  else
    let offered := offerDown e.trib { c with tag := e.channel.setWidth 10 } s
    if judgeDown e.trib s = .admitted then
      if isFirst then setCurrent tag (.opened e.trib e.channel 1) offered else offered
    else notCarried offered

/-- A FIRST or SOLE taken in OPEN or DISCARDING: the previous message is given up, and the cell is judged from IDLE (R113). -/
def restartDown (tag : Tag) (c : Cell) (s : State) : State :=
  let ended :=
    match (s.channels.get tag.toNat).current with
    | .opened n _ _ => countDown n (.addDiscarded 1) (countTrunk .bumpContinuation s)
    | .idle => s
    | .discarding _ _ _ _ => s
    | .discardingInactive => s
  startDown tag c (setCurrent tag .idle ended)

/-- A MIDDLE or LAST taken in OPEN: continuity, then the offer to the latched Dn (R115, R116).
`between` is what the store takes between the refusal of a LAST and the offer of its conversion (R116, R22). -/
def continueDown (between : State → State) (tag : Tag) (n : Trib) (channel : Channel) (next : Index) (c : Cell) (s : State) : State :=
  if c.index ≠ next then
    let gap := giveUpDown tag n channel next (countTrunk .bumpContinuation s)
    if c.position = .last then closeGivenUp tag gap else gap
  else
    let offered := offerDown n { c with tag := channel.setWidth 10 } s
    if judgeDown n s = .admitted then
      setCurrent tag (if c.position = .last then .idle else .opened n channel (c.index + 1)) offered
    else
      let refused := giveUpDown tag n channel next offered
      if c.position = .last then closeGivenUp tag (between refused) else refused

/-- A well-formed data cell handled by the entry for its tag (section 6.3). -/
def channelArrival (between : State → State) (c : Cell) (s : State) : State :=
  match (s.channels.get c.tag.toNat).current, c.position with
  | .idle, .first => startDown c.tag c s
  | .idle, .sole => startDown c.tag c s
  | .idle, .middle => countTrunk .bumpContinuation s
  | .idle, .last => countTrunk .bumpContinuation s
  | .opened n ch next, .middle => continueDown between c.tag n ch next c s
  | .opened n ch next, .last => continueDown between c.tag n ch next c s
  | .opened _ _ _, .first => restartDown c.tag c s
  | .opened _ _ _, .sole => restartDown c.tag c s
  | .discarding _ _ _ _, .middle => s
  | .discarding _ _ _ _, .last => closeGivenUp c.tag s
  | .discarding _ _ _ _, .first => restartDown c.tag c s
  | .discarding _ _ _ _, .sole => restartDown c.tag c s
  | .discardingInactive, .middle => s
  | .discardingInactive, .last => closeGivenUp c.tag s
  | .discardingInactive, .first => restartDown c.tag c s
  | .discardingInactive, .sole => restartDown c.tag c s

/-- A malformed cell on an assignable tag (R108). -/
def malformedDown (c : Cell) (s : State) : State :=
  let counted := countTrunk .bumpMalformed s
  match (s.channels.get c.tag.toNat).current with
  | .opened n ch next => giveUpDown c.tag n ch next counted
  | .idle => counted
  | .discarding _ _ _ _ => counted
  | .discardingInactive => counted

end Sys2Proof.Machine
end

