-- ==== Sys2Proof/Machine/Scheduler.lean ====
section
/-! DEFINITION. The slot scheduler and the cycle boundary (chapter 5; R72 to R75, R153 to R155, R171 to R173), and the tributary
transmitter's cell times (R48). -/

namespace Sys2Proof.Machine

/-! ## What the survey is told (R103, R172) -/

/-- The kinds of slot the scheduler reports. -/
inductive SlotKind where
  | own (n : Trib)
  | borrowed (n : Trib)
  | abandon
  | management
  | idle
  deriving DecidableEq, Repr

/-- The survey record with the counter of a reported kind one step up (R172). -/
def Survey.tally (v : Survey) : SlotKind → Survey
  | .own n => { v with own := v.own.set n (saturate16 v.own[n]) }
  | .borrowed n => { v with borrowed := v.borrowed.set n (saturate16 v.borrowed[n]) }
  | .abandon => { v with abandon := saturate16 v.abandon }
  | .management => { v with management := saturate16 v.management }
  | .idle => { v with idle := saturate16 v.idle }

/-- A slot's kind reported to the survey, which counts it only while RUNNING (R172). -/
def reportSlot (k : SlotKind) (s : State) : State :=
  if s.survey.state = .running then { s with survey := s.survey.tally k } else s

/-! ## The borrowing decision (R93 to R95) -/

/-- Tn is a candidate for spare slots (R93). -/
def isCandidate (s : State) (n : Trib) : Bool :=
  s.ports.table[n].enable && s.plans.running.entries[n].borrow && !(s.scheduler.abandon.any fun e => e.trib == n)
    && !s.scheduler.borrow.contains n && decide (1 ≤ s.store.up[n].complete)

/-- c comes before b: express, then lower rank, then lower number (R94). -/
def better (p : Plan) (c b : Trib) : Bool :=
  if p.express = some c then p.express != some b
  else if p.express = some b then false
  else decide (p.entries[c].rank < p.entries[b].rank ∨ (p.entries[c].rank = p.entries[b].rank ∧ c < b))

/-- The best of a set of tributaries (R94). -/
def best (p : Plan) : List Trib → Option Trib
  | [] => none
  | c :: cs =>
    match best p cs with
    | none => some c
    | some b => if better p b c then some b else some c

/-- Candidate c qualifies to be pushed above the top h (R95). -/
def qualifies (p : Plan) (h c : Trib) : Bool :=
  (p.express == some c && p.express != some h)
    || (p.overtake && decide (p.entries[c].rank < p.entries[h].rank) && p.express != some h)

/-- The borrow stack the decision of a spare slot leaves (R95). -/
def borrowDecision (s : State) : List Trib :=
  let candidates := allTribs.filter (isCandidate s)
  match s.scheduler.borrow with
  | [] => (best s.plans.running candidates).toList
  | h :: below =>
    match best s.plans.running (candidates.filter (qualifies s.plans.running h)) with
    | some c => c :: h :: below
    | none => h :: below

/-! ## What a slot carries (R84 to R89) -/

/-- What a slot carries: its kind, its cell and the state after the takes. -/
structure Decision where
  kind : SlotKind
  cell : Cell
  state : State

/-- An abandon entry sent: the list without it, and *abandon cells sent* counted (R88). -/
def sendAbandon (e : AbandonEntry) (rest : List AbandonEntry) (s : State) : Decision :=
  { kind := .abandon
    cell := e.cell
    state := countUp e.trib .bumpAbandonSent { s with scheduler := { s.scheduler with abandon := rest } } }

/-- A holder whose LAST or SOLE has been sent leaves the borrow stack (R96, R97). -/
def afterSend (n : Trib) (c : Cell) (s : State) : State := if c.isEnd then leaveBorrow n s else s

/-- A spare slot: oldest abandon entry, else the top holder after the borrowing decision, else idle (R86, R96). -/
def decideSpare (s : State) : Decision :=
  match s.scheduler.abandon with
  | e :: rest => sendAbandon e rest s
  | [] =>
    let decided := { s with scheduler := { s.scheduler with borrow := borrowDecision s } }
    match borrowDecision s with
    | [] => { kind := .idle, cell := idleCell, state := decided }
    | t :: _ =>
      match takeUp t decided with
      | some (c, taken) => { kind := .borrowed t, cell := c, state := afterSend t c taken }
      | none => { kind := .idle, cell := idleCell, state := decided }

/-- A slot owned by Tn: its abandon entry, else the head cell of Un, else spare (R84).
A head cell goes out whether or not a message of another tributary is still to end on its tag, as can be after a plan switch; R15 and R84 part
there, and the model follows R84 (notes/assumptions/19.md). -/
def decideOwn (n : Trib) (s : State) : Decision :=
  match s.scheduler.abandon.find? fun e => e.trib == n with
  | some e => sendAbandon e (s.scheduler.abandon.erase e) s
  | none =>
    match takeUp n s with
    | some (c, taken) => { kind := .own n, cell := c, state := afterSend n c taken }
    | none => decideSpare s

/-- The oldest eligible record, with the list in which it is SENT and its timer at 0 (R153, R154). -/
def offerNotice (interval : Byte) : List NoticeRecord → Option (NoticeRecord × List NoticeRecord)
  | [] => none
  | r :: rs =>
    if r.eligible interval then some (r, { r with state := .sent 0 } :: rs)
    else
      match offerNotice interval rs with
      | some (o, rs') => some (o, r :: rs')
      | none => none

/-- The Management counters a response sent raises (R89, R166). -/
def countResponse (r : Response) (c : ManagementCounters) : ManagementCounters :=
  if r.repeated then c.bumpResponses.bumpRepeats else c.bumpResponses

/-- A slot owned by MANAGEMENT: the oldest placed response, else the notice offered, else spare (R85). -/
def decideManagement (s : State) : Decision :=
  match s.engine.placed with
  | r :: rest =>
    { kind := .management
      cell := r.cell
      state := countManagement (countResponse r) { s with engine := { s.engine with placed := rest } } }
  | [] =>
    match offerNotice s.notices.interval s.notices.records with
    | some (r, records) =>
      { kind := .management
        cell := r.cell
        state := countManagement .bumpNotices { s with notices := { s.notices with records := records } } }
    | none => decideSpare s

/-- The decision of a slot by its owner (section 5.2). -/
def decideSlot (owner : Owner) (s : State) : Decision :=
  match owner with
  | .trib n => decideOwn n s
  | .management => decideManagement s
  | .openSlot => decideSpare s

/-! ## Cycle boundaries (R82) -/

/-- One boundary more on the repeat timer of a SENT record (R155). -/
def NoticeRecord.tick (r : NoticeRecord) : NoticeRecord :=
  match r.state with
  | .waiting => r
  | .sent timer => { r with state := .sent (saturate8 timer) }

/-- A boundary brings a SENT record's timer to the interval (R155). -/
def NoticeRecord.expires (interval : Byte) (r : NoticeRecord) : Bool :=
  match r.state with
  | .waiting => false
  | .sent timer => decide (timer.toNat < interval.toNat ∧ interval.toNat ≤ (saturate8 timer).toNat)

/-- The notice list takes the boundary, if it has not yet: every SENT record's timer rises (R155). -/
def noticesTakeBoundary (s : State) : State :=
  if s.scheduler.due.notices then
    { s with
      notices := { s.notices with records := s.notices.records.map NoticeRecord.tick }
      scheduler := { s.scheduler with due := { s.scheduler.due with notices := false } } }
  else s

/-- The window of a RUNNING survey is complete with one cycle more (R171). -/
def Survey.completes (v : Survey) : Bool :=
  v.state == .running && v.window != 0 && saturate16 v.cycles == v.window

/-- The survey after a boundary (R171). -/
def Survey.afterBoundary (v : Survey) : Survey :=
  match v.state with
  | .idle => v
  | .armed => { v with state := .running }
  | .running => { v with cycles := saturate16 v.cycles, state := if v.completes then .done else .running }
  | .done => v

/-- The survey takes the boundary, if it has not yet, but for its posting (R171). -/
def surveyCountsBoundary (s : State) : State :=
  if s.scheduler.due.survey then
    { s with
      survey := s.survey.afterBoundary
      scheduler := { s.scheduler with due := { s.scheduler.due with survey := false } } }
  else s

/-- The posting of the survey's taking of a boundary in a state: SURVEY_DONE, if that completes the window (R171). -/
def postSurveyDone (before s : State) : State :=
  if before.scheduler.due.survey && before.survey.completes then post .surveyDone 0 0 s else s

/-- The survey takes the boundary, if it has not yet; a window completed posts SURVEY_DONE (R171). -/
def surveyTakesBoundary (s : State) : State := postSurveyDone s (surveyCountsBoundary s)

/-- The switch at the boundary that ends PENDING: selector, switch state, notice, survey report, and the response of SWITCH PLAN (R73). -/
def switchPlans (target : PlanId) (mode : SwitchMode) (s : State) : State :=
  let switch : SwitchState :=
    match mode with
    | .firm => .steady
    | .trial window => .trial window s.plans.run
  let moved := { s with plans := { s.plans with run := target, switch := switch } }
  let reported := reportPlanChange (post .planSwitched (planByte target) mode.code moved)
  match s.engine.inProgress with
  | some c => complete c .ok [planByte target, mode.code] reported
  | none => reported

/-- The revert to the fallback plan: selector, switch state, notice and survey report (R75). -/
def revertPlans (fallback : PlanId) (s : State) : State :=
  let moved := { s with plans := { s.plans with run := fallback, switch := .steady } }
  reportPlanChange (post .planReverted (planByte fallback) (planByte s.plans.run) moved)

/-- The boundary ends the last trial cycle (R74). -/
def PlanStore.reverts (ps : PlanStore) : Bool :=
  match ps.switch with
  | .trial remaining _ => decide (remaining.toNat ≤ 1)
  | .steady => false
  | .pending _ _ => false

/-- The plan store takes the boundary, if it has not yet: the switch, a trial cycle counted, the revert, or nothing (R73 to R75). -/
def plansTakeBoundary (s : State) : State :=
  if s.scheduler.due.plan then
    let s := { s with scheduler := { s.scheduler with due := { s.scheduler.due with plan := false } } }
    match s.plans.switch with
    | .steady => s
    | .pending target mode => switchPlans target mode s
    | .trial remaining fallback =>
      if s.plans.reverts then revertPlans fallback s
      else { s with plans := { s.plans with switch := .trial (remaining - 1) fallback } }
  else s

/-- The scheduler delivers the boundary: the position returns to 0, the blocks given take it, and the notice list takes it too unless it
leaves it until slot 0 has been decided (R81, R82, R155). -/
def deliverBoundary (noticesLate : Bool) (blocks : State → State) (s : State) : State :=
  if s.scheduler.due.scheduler then
    let taken :=
      blocks
        { s with
          scheduler :=
            { s.scheduler with
              position := 0
              cycle := s.scheduler.cycle + 1
              due := { s.scheduler.due with scheduler := false } } }
    if noticesLate then taken else noticesTakeBoundary taken
  else s

/-- The plan store and the survey take the boundary in one step, by `taking` in one order or the other; SURVEY_DONE comes before or after
the plan store's posting, whichever block takes the boundary first (R147, R173). -/
def planAndSurvey (turn : Turn) (taking : State → State) (s : State) : State := postBeside turn (postSurveyDone s) taking s

/-- A boundary in delivery: taken by the survey alone, or delivered to the blocks that have not yet taken it, the survey before or after the
plan store or later than this step, in which other events may come between (R82, R173; notes/assumptions/6.md). -/
def boundaryEvent (order : BoundaryOrder) (s : State) : State :=
  match order.survey with
  | .alone => surveyTakesBoundary s
  | .beforePlan =>
    deliverBoundary order.noticesLate (planAndSurvey order.surveyPost fun s => plansTakeBoundary (surveyCountsBoundary s)) s
  | .afterPlan =>
    deliverBoundary order.noticesLate (planAndSurvey order.surveyPost fun s => surveyCountsBoundary (plansTakeBoundary s)) s
  | .late => deliverBoundary order.noticesLate plansTakeBoundary s

/-- The plan store takes the revert boundary in a step of its own (R75). -/
def revertEvent (s : State) : State :=
  if s.scheduler.due.plan && s.plans.reverts then
    plansTakeBoundary { s with scheduler := { s.scheduler with position := 0 } }
  else s

/-- The notice list takes a boundary that brings a timer to the interval, in a step of its own (R155). -/
def expiryEvent (s : State) : State :=
  if s.scheduler.due.notices && s.notices.records.any (NoticeRecord.expires s.notices.interval) then noticesTakeBoundary s else s

/-- The survey takes the boundary that completes its window, in a step of its own (R171). -/
def surveyDoneEvent (s : State) : State :=
  if s.scheduler.due.survey && s.survey.completes then surveyTakesBoundary s else s

/-! ## Slots (R81, R83) -/

/-- The position moved on by one, or the boundary after the last slot of the cycle made due at every block (R81, R82). -/
def advanceSlot (length : Nat) (s : State) : State :=
  if s.scheduler.position + 1 < length then
    { s with scheduler := { s.scheduler with position := s.scheduler.position + 1 } }
  else { s with scheduler := { s.scheduler with due := { scheduler := true, plan := true, notices := true, survey := true } } }

/-- A chosen cell handed to the trunk transmitter, its kind reported, and the position moved on (R81, R83).
A survey that left the boundary takes it here, after the decision of slot 0 and before that slot's report, which it must have in the order in
which boundaries and slots occur (R82, R172; notes/assumptions/6.md). -/
def carrySlot (length : Nat) (d : Decision) : State :=
  advanceSlot length
    (reportSlot d.kind (surveyTakesBoundary { d.state with links := { d.state.links with trunkTx := .sending d.cell } }))

/-- A notice list that left a boundary until after slot 0 takes it before slot 1 (R82, R155; notes/assumptions/6.md).
That boundary counts on a record sent in slot 0 too, which is SENT when the list takes it: the model's reading of a corner in which the two
halves of R155 part (notes/assumptions/18.md). -/
def settleNotices (s : State) : State := if s.scheduler.position = 0 then s else noticesTakeBoundary s

/-- A trunk slot; none comes while the boundary of the cycle before it is still to be delivered (R81, R83). -/
def slotEvent (s : State) : State :=
  if s.scheduler.due.scheduler then s
  else
    let s := settleNotices s
    carrySlot s.plans.running.length (decideSlot (s.plans.running.owner s.scheduler.position) s)

/-! ## Tributary cell times (R48) -/

/-- What the transmitter of Tn is sending. -/
def setTribTx (n : Trib) (c : Cell) (s : State) : State :=
  { s with links := { s.links with tribTx := s.links.tribTx.set n (.sending c) } }

/-- A cell time of tributary link Tn: the head of Dn if the port is UP and Dn non-empty, an idle cell otherwise (R24, R48). -/
def cellTimeEvent (n : Trib) (s : State) : State :=
  if s.ports.isUp n then
    match takeDown n s with
    | some (c, taken) => setTribTx n c taken
    | none => setTribTx n idleCell s
  else setTribTx n idleCell s

/-! ## The commands -/

/-- SLOT (R83). -/
def execSlot (s : State) : Host.Outcome State Fault Refusal := .next (whileRunning s slotEvent)

/-- CYCLE_BOUNDARY (R82). -/
def execCycleBoundary (order : BoundaryOrder) (s : State) : Host.Outcome State Fault Refusal :=
  .next (whileRunning s (boundaryEvent order))

/-- PLAN_REVERTED (R75). -/
def execPlanReverted (s : State) : Host.Outcome State Fault Refusal := .next (whileRunning s revertEvent)

/-- NOTICE_REPEAT_EXPIRY (R155). -/
def execNoticeRepeatExpiry (s : State) : Host.Outcome State Fault Refusal := .next (whileRunning s expiryEvent)

/-- SURVEY_DONE (R171). -/
def execSurveyDone (s : State) : Host.Outcome State Fault Refusal := .next (whileRunning s surveyDoneEvent)

/-- TRIBUTARY_CELL_TIME (R48). -/
def execTributaryCellTime (n : Trib) (s : State) : Host.Outcome State Fault Refusal := .next (whileRunning s (cellTimeEvent n))

end Sys2Proof.Machine
end

