-- ==== Sys2Proof/Machine/Receive.lean ====
section
/-! DEFINITION. The links (chapter 1): hard reset and its pins (R16, R181), signal (R11), and the header tests of the nine receivers with what
they hand on and report (R8 to R12). -/

namespace Sys2Proof.Machine

/-! ## Hard reset (R16, R57, R181) -/

/-- Every transmitter silent (R16). -/
def Links.silenced (l : Links) : Links := { l with trunkTx := .silent, tribTx := Vector.replicate 8 .silent }

/-- A hard reset begins: transmitters go silent, and a SWITCH PLAN or a trial in progress is ended without answer or notice (R16, R57). -/
def beginHardReset (cause : ResetCause) (s : State) : State :=
  { s with
    pins := { s.pins with hardReset := some cause }
    links := s.links.silenced
    plans := { s.plans with switch := .steady }
    engine := { s.engine with inProgress := none, reserved := false } }

/-- POWER_ON: a hard reset begins by power-on, with the supplies not yet stable (R16, R181). -/
def powerOnEvent (s : State) : State :=
  beginHardReset .powerOn { s with pins := { s.pins with suppliesStable := false } }

/-- RESET_N goes low: a hard reset begins unless one is in progress, which keeps the cause it began with (R181). -/
def resetNEvent (s : State) : State :=
  let low := { s with pins := { s.pins with resetNHigh := false } }
  if s.pins.hardReset.isNone then beginHardReset .resetPin low else low

/-- The end of the hard reset in progress: every block takes its starting state (R16). -/
def hardResetEndEvent (s : State) : State :=
  match s.pins.hardReset with
  | some cause => .afterHardReset cause s.links.trunkSignal s.links.tribSignal s.pending
  | none => s

/-! ## Receivers -/

/-- The receiver of a link. -/
def receiver (l : Link) (s : State) : Receiver :=
  match l with
  | .trunk => s.links.trunkRx
  | .tributary n => s.links.tribRx[n]

/-- The receiver of a link replaced. -/
def setReceiver (l : Link) (r : Receiver) (s : State) : State :=
  match l with
  | .trunk => { s with links := { s.links with trunkRx := r } }
  | .tributary n => { s with links := { s.links with tribRx := s.links.tribRx.set n r } }

/-- The line into a receiver carries signal. -/
def hasSignal (l : Link) (s : State) : Bool :=
  match l with
  | .trunk => s.links.trunkSignal
  | .tributary n => s.links.tribSignal[n]

/-- The signal of a line replaced. -/
def setSignal (l : Link) (b : Bool) (s : State) : State :=
  match l with
  | .trunk => { s with links := { s.links with trunkSignal := b } }
  | .tributary n => { s with links := { s.links with tribSignal := s.links.tribSignal.set n b } }

/-- A receiver in SEEK with its candidate at a byte of the stream. -/
def seekAt (position : Nat) : Receiver := { delineation := .seek, count := 0, position := position }

/-- A receiver reports its entry to LOCKED to its owner: the port of a tributary records it (R12, R36). -/
def recordLocked (l : Link) (s : State) : State :=
  match l with
  | .trunk => s
  | .tributary n => setRxLocked n true s

/-- The posting of an entry to LOCKED that moved the ports from one state to another: TRUNK_RX_CHANGE with detail LOCKED, or the
PORT_CHANGE of an enabled port that goes UP (R12, R37). -/
def postLocked (l : Link) (before after : Ports) (s : State) : State :=
  match l with
  | .trunk => post .trunkRxChange 0 2 s
  | .tributary n => postStateChange n (before.state n) (after.state n) s

/-- A receiver reports a lock loss: the port is told; or it is counted, TRUNK_RX_CHANGE is posted with detail SEEK, and trunk receive and
the survey are told (R10, R12, R119, R173). -/
def reportLockLost (turn : Turn) (l : Link) (s : State) : State :=
  match l with
  | .trunk => reportLockLoss (discardAll (post .trunkRxChange 0 0 (countTrunk .bumpLockLosses s)))
  | .tributary n => portLockLost turn n s

/-- A cell with an invalid header discarded in LOCKED is counted (R10). -/
def countBadHeader (l : Link) (s : State) : State :=
  match l with
  | .trunk => countTrunk .bumpBadHeader s
  | .tributary n => countUp n .bumpMalformed s

/-- An arrival at trunk receive, sorted by tag (R107). -/
def trunkArrival (between : State → State) (c : Cell) (s : State) : State :=
  if c.tag.toNat < Config.assignableTags then
    if c.wellFormedTrunk then channelArrival between c s else malformedDown c s
  else if c.tag = managementTag then managementArrival c s
  else if c.tag = idleTag then s
  else countTrunk .bumpUnassignable s

/-- A cell with a valid header handed to the block that owns its link's arrivals, unless it is idle (R6, R12). -/
def handOn (between : State → State) (l : Link) (c : Cell) (s : State) : State :=
  if c.tag = idleTag then s
  else
    match l with
    | .trunk => trunkArrival between c s
    | .tributary n => tribArrival n c s

/-- The receiver of a link may test headers: the line carries signal (R11). -/
def testing (l : Link) (d : Delineation) (s : State) : Bool := hasSignal l s && (receiver l s).delineation == d

/-- A header test in SEEK (R8). -/
def seekTest (l : Link) (bytes : List Byte) (s : State) : State :=
  if testing l .seek s && seekBytesOk bytes then
    let r := receiver l s
    if headerValid bytes then
      setReceiver l { delineation := .confirm, count := 1, position := r.position + Config.cellBytes } s
    else setReceiver l (seekAt (r.position + 1)) s
  else s

/-- The fourth consecutive valid header: the receiver is LOCKED and reports it before it hands on its first cell (R9, R12); the posting of
the entry comes before or after those other blocks make for that cell (R147). -/
def enterLocked (turn : Turn) (l : Link) (bytes : List Byte) (s : State) : State :=
  let locked :=
    recordLocked l
      (setReceiver l { delineation := .locked, count := 0, position := (receiver l s).position + Config.cellBytes } s)
  postBeside turn (postLocked l s.ports locked.ports) (handOn id l (decodeCell bytes)) locked

/-- A header test in CONFIRM (R9). -/
def confirmTest (turn : Turn) (l : Link) (bytes : List Byte) (s : State) : State :=
  if testing l .confirm s && cellBytesOk bytes then
    let r := receiver l s
    if headerValid bytes then
      if r.count + 1 < 4 then
        setReceiver l { delineation := .confirm, count := r.count + 1, position := r.position + Config.cellBytes } s
      else enterLocked turn l bytes s
    else setReceiver l (seekAt (r.position + 1)) s
  else s

/-- A header test in LOCKED (R10), with what happens between the two offers of one trunk arrival (R116). -/
def lockedTestWith (between : State → State) (turn : Turn) (l : Link) (bytes : List Byte) (s : State) : State :=
  if testing l .locked s && cellBytesOk bytes then
    let r := receiver l s
    if headerValid bytes then
      handOn between l (decodeCell bytes)
        (setReceiver l { delineation := .locked, count := 0, position := r.position + Config.cellBytes } s)
    else if r.count + 1 < 5 then
      countBadHeader l
        (setReceiver l { delineation := .locked, count := r.count + 1, position := r.position + Config.cellBytes } s)
    else reportLockLost turn l (countBadHeader l (setReceiver l (seekAt (r.position + 1)) s))
  else s

/-- The line into a receiver loses signal: the receiver enters SEEK, and if it was LOCKED this is a lock loss that counts no bad header
(R11). -/
def signalLossEvent (turn : Turn) (l : Link) (s : State) : State :=
  let lost := setSignal l false s
  if s.pins.hardReset.isSome then lost
  else
    let sought := setReceiver l (seekAt 0) lost
    if (receiver l s).delineation = .locked then reportLockLost turn l sought else sought

/-- Signal returns: the search starts from the first byte recovered (R11). -/
def signalReturnEvent (l : Link) (s : State) : State :=
  if hasSignal l s then s
  else if s.pins.hardReset.isSome then setSignal l true s
  else setReceiver l (seekAt 0) (setSignal l true s)

/-- One event the store takes between two offers (R22, R116). -/
def runStoreEvent : StoreEvent → State → State
  | .slot, s => slotEvent s
  | .cellTime n, s => cellTimeEvent n s
  | .headerTest n bytes turn, s =>
    if testing (.tributary n) .confirm s then confirmTest turn (.tributary n) bytes s
    else lockedTestWith id turn (.tributary n) bytes s
  | .signalLoss n turn, s => signalLossEvent turn (.tributary n) s
  | .writePort turn, s => runCommand .writePort (workWritePort turn) s
  | .flushPort, s => runCommand .flushPort workFlushPort s

/-- The events the store takes between two offers, in order (R22, R116). -/
def runStoreEvents : List StoreEvent → State → State
  | [], s => s
  | e :: rest, s => runStoreEvents rest (runStoreEvent e s)

/-- A header test in LOCKED (R10, R116). -/
def lockedTest (turn : Turn) (l : Link) (bytes : List Byte) (between : List StoreEvent) (s : State) : State :=
  lockedTestWith (runStoreEvents between) turn l bytes s

/-! ## The commands -/

/-- POWER_ON (R16). -/
def execPowerOn (s : State) : Host.Outcome State Fault Refusal := .next (powerOnEvent s)

/-- RESET_N (R181). -/
def execResetN (s : State) : Host.Outcome State Fault Refusal := .next (resetNEvent s)

/-- HARD_RESET_END (R16). -/
def execHardResetEnd (s : State) : Host.Outcome State Fault Refusal := .next (hardResetEndEvent s)

/-- SIGNAL_LOSS (R11). -/
def execSignalLoss (l : Link) (s : State) (turn : Turn := .last) : Host.Outcome State Fault Refusal := .next (signalLossEvent turn l s)

/-- SIGNAL_RETURN (R11). -/
def execSignalReturn (l : Link) (s : State) : Host.Outcome State Fault Refusal := .next (signalReturnEvent l s)

/-- SEEK_HEADER_TEST (R8). -/
def execSeekHeaderTest (l : Link) (bytes : List Byte) (s : State) : Host.Outcome State Fault Refusal :=
  .next (whileRunning s (seekTest l bytes))

/-- CONFIRM_HEADER_TEST (R9). -/
def execConfirmHeaderTest (l : Link) (bytes : List Byte) (s : State) (turn : Turn := .last) : Host.Outcome State Fault Refusal :=
  .next (whileRunning s (confirmTest turn l bytes))

/-- LOCKED_HEADER_TEST (R10). -/
def execLockedHeaderTest (l : Link) (bytes : List Byte) (between : List StoreEvent) (s : State) (turn : Turn := .last) :
    Host.Outcome State Fault Refusal :=
  .next (whileRunning s (lockedTest turn l bytes between))

end Sys2Proof.Machine
end

