-- ==== Sys2Proof/Machine/ReportCommands.lean ====
section
/-! DEFINITION. The commands of the counter bank and the survey (chapter 9) and of the notice list (chapter 8). -/

namespace Sys2Proof.Machine

/-! ## Counters -/

/-- One of the 18 group sets of the counter bank (R162). -/
inductive CounterGroup where
  | uplink (n : Trib)
  | downlink (n : Trib)
  | trunk
  | management
  deriving DecidableEq, Repr

/-- The group set two operands name, if they name one (R167). -/
def groupOf (group which : Byte) : Option CounterGroup :=
  if group = 0 then (tribOf which).map .uplink
  else if group = 1 then (tribOf which).map .downlink
  else if group = 2 ∧ which = 0 then some .trunk
  else if group = 3 ∧ which = 0 then some .management
  else none

/-- The seven counters of a group set in position order (R163 to R166). -/
def CounterBank.values (b : CounterBank) : CounterGroup → List (BitVec 32)
  | .uplink n => b.up[n].values
  | .downlink n => b.down[n].values
  | .trunk => b.trunk.values
  | .management => b.management.values

/-- The bank with the seven counters of a group set at 0 (R168). -/
def CounterBank.cleared (b : CounterBank) : CounterGroup → CounterBank
  | .uplink n => { b with up := b.up.set n .zero }
  | .downlink n => { b with down := b.down.set n .zero }
  | .trunk => { b with trunk := .zero }
  | .management => { b with management := .zero }

/-- Seven counters as 28 data bytes (R167). -/
def counterData (values : List (BitVec 32)) : List Byte := values.flatMap bytes32

/-- READ COUNTERS (R167). -/
def workReadCounters (c : TakenCommand) (s : State) : State :=
  match groupOf (byteAt c.operands 0) (byteAt c.operands 1) with
  | some g => complete c .ok (counterData (s.bank.values g)) s
  | none => answerRange c s

/-- CLEAR COUNTERS (R168). -/
def workClearCounters (c : TakenCommand) (s : State) : State :=
  match groupOf (byteAt c.operands 0) (byteAt c.operands 1) with
  | some g => complete c .ok (counterData (s.bank.values g)) { s with bank := s.bank.cleared g }
  | none => answerRange c s

/-! ## Survey -/

/-- The survey state and the window, the data of the survey commands' STATE (R170, R174). -/
def surveyPosition (v : Survey) : List Byte := [v.state.code] ++ bytes16 v.window.toNat

/-- START SURVEY (R170). -/
def workStartSurvey (c : TakenCommand) (s : State) : State :=
  let armed := { Survey.reset with state := .armed, window := BitVec.ofNat 16 (wordAt c.operands 0) }
  match s.survey.state with
  | .idle => complete c .ok [] { s with survey := armed }
  | .done => complete c .ok [] { s with survey := armed }
  | .armed => complete c .state (surveyPosition s.survey) s
  | .running => complete c .state (surveyPosition s.survey) s

/-- STOP SURVEY (R174). -/
def workStopSurvey (c : TakenCommand) (s : State) : State :=
  let stopped := { s with survey := { s.survey with state := .done, stopped := true } }
  match s.survey.state with
  | .running =>
    if s.survey.window = 0 then complete c .ok (bytes16 s.survey.cycles.toNat) stopped
    else complete c .state (surveyPosition s.survey) s
  | .armed =>
    if s.survey.window = 0 then complete c .ok (bytes16 s.survey.cycles.toNat) stopped
    else complete c .state (surveyPosition s.survey) s
  | .idle => complete c .state (surveyPosition s.survey) s
  | .done => complete c .state (surveyPosition s.survey) s

/-- The own and borrowed cells of one tributary (R175). -/
def surveyPair (v : Survey) (n : Trib) : List Byte := bytes16 v.own[n].toNat ++ bytes16 v.borrowed[n].toNat

/-- The flags of the survey in one byte: bit 0 plan-switched, bit 1 lock-lost, bit 2 stopped (R175). -/
def surveyFlags (v : Survey) : Byte :=
  byteOf ((if v.planSwitched then 1 else 0) + (if v.lockLost then 2 else 0) + (if v.stopped then 4 else 0))

/-- The data of a page of the survey record, if the page exists (R175). -/
def surveyPage (v : Survey) (page : Nat) : Option (List Byte) :=
  let front := [v.state.code] ++ bytes16 v.cycles.toNat
  if page = 0 then some (front ++ surveyPair v 0 ++ surveyPair v 1 ++ surveyPair v 2 ++ surveyPair v 3)
  else if page = 1 then some (front ++ surveyPair v 4 ++ surveyPair v 5 ++ surveyPair v 6 ++ surveyPair v 7)
  else if page = 2 then
    some (front ++ bytes16 v.idle.toNat ++ bytes16 v.management.toNat ++ bytes16 v.abandon.toNat ++ [surveyFlags v] ++ bytes16 v.window.toNat)
  else none

/-- READ SURVEY (R175). -/
def workReadSurvey (c : TakenCommand) (s : State) : State :=
  match surveyPage s.survey (byteAt c.operands 0).toNat with
  | some data => complete c .ok data s
  | none => answerRange c s

/-! ## Notices -/

/-- The records without the one of a number. -/
def removeNumber (number : Byte) (records : List NoticeRecord) : List NoticeRecord :=
  records.filter fun r => r.number != number

/-- The records with the one of a number WAITING again (R156). -/
def rewaitNumber (number : Byte) (records : List NoticeRecord) : List NoticeRecord :=
  changeFirst (fun r => r.number == number) (fun r => { r with state := .waiting }) records

/-- The record list replaced. -/
def setRecords (records : List NoticeRecord) (s : State) : State :=
  { s with notices := { s.notices with records := records } }

/-- ACK NOTICE (R156). -/
def workAckNotice (c : TakenCommand) (s : State) : State :=
  let number := byteAt c.operands 0
  let count := byteAt c.operands 1
  if number = 0 ∨ count = 0 then answerRange c s
  else
    match s.notices.records.find? fun r => r.number == number with
    | some r =>
      if r.count = count then complete c .ok [0, 0] (setRecords (removeNumber number s.notices.records) s)
      else if count.toNat < r.count.toNat then complete c .ok [1, r.count] (setRecords (rewaitNumber number s.notices.records) s)
      else complete c .ok [3, r.count] s
    | none => complete c .ok [2, 0] s

/-- The bits of a kind mask that name no kind: 0 and 11..14 (R158). -/
def unnamedBits : BitVec 16 := 0x7801

/-- The bits of RESTARTED and NOTICES_LOST, held at 1 (R158). -/
def heldBits : BitVec 16 := 0x8002

/-- SET NOTICE OPTIONS (R158). -/
def workSetNoticeOptions (c : TakenCommand) (s : State) : State :=
  let mask := BitVec.ofNat 16 (wordAt c.operands 0)
  let interval := byteAt c.operands 2
  if interval = 0 ∨ mask &&& unnamedBits ≠ 0 then answerRange c s
  else
    complete c .ok (bytes16 (mask ||| heldBits).toNat ++ [interval])
      { s with notices := { s.notices with mask := mask ||| heldBits, interval := interval } }

/-! ## The commands -/

/-- READ COUNTERS (R167). -/
def execReadCounters (s : State) : Host.Outcome State Fault Refusal := .next (whileRunning s (runCommand .readCounters workReadCounters))

/-- CLEAR COUNTERS (R168). -/
def execClearCounters (s : State) : Host.Outcome State Fault Refusal :=
  .next (whileRunning s (runCommand .clearCounters workClearCounters))

/-- START SURVEY (R170). -/
def execStartSurvey (s : State) : Host.Outcome State Fault Refusal := .next (whileRunning s (runCommand .startSurvey workStartSurvey))

/-- STOP SURVEY (R174). -/
def execStopSurvey (s : State) : Host.Outcome State Fault Refusal := .next (whileRunning s (runCommand .stopSurvey workStopSurvey))

/-- READ SURVEY (R175). -/
def execReadSurvey (s : State) : Host.Outcome State Fault Refusal := .next (whileRunning s (runCommand .readSurvey workReadSurvey))

/-- ACK NOTICE (R156). -/
def execAckNotice (s : State) : Host.Outcome State Fault Refusal := .next (whileRunning s (runCommand .ackNotice workAckNotice))

/-- SET NOTICE OPTIONS (R158). -/
def execSetNoticeOptions (s : State) : Host.Outcome State Fault Refusal :=
  .next (whileRunning s (runCommand .setNoticeOptions workSetNoticeOptions))

end Sys2Proof.Machine
end

