-- ==== Sys2Proof/Machine/Dispatch.lean ====
section
/-! DEFINITION. One arm for each row of the table of steps: the meaning of the command on everything but the queue of waiting commands. -/

namespace Sys2Proof.Machine

def exec (i : Instr) (s : State) : Host.Outcome State Fault Refusal :=
  match i with
  | .powerOn => Sys2Proof.Machine.execPowerOn s
  | .resetN => Sys2Proof.Machine.execResetN s
  | .hardResetEnd => Sys2Proof.Machine.execHardResetEnd s
  | .signalLoss l turn => Sys2Proof.Machine.execSignalLoss l s turn
  | .signalReturn l => Sys2Proof.Machine.execSignalReturn l s
  | .seekHeaderTest l bytes => Sys2Proof.Machine.execSeekHeaderTest l bytes s
  | .confirmHeaderTest l bytes turn => Sys2Proof.Machine.execConfirmHeaderTest l bytes s turn
  | .lockedHeaderTest l bytes between turn => Sys2Proof.Machine.execLockedHeaderTest l bytes between s turn
  | .slot => Sys2Proof.Machine.execSlot s
  | .cycleBoundary order => Sys2Proof.Machine.execCycleBoundary order s
  | .planReverted => Sys2Proof.Machine.execPlanReverted s
  | .noticeRepeatExpiry => Sys2Proof.Machine.execNoticeRepeatExpiry s
  | .surveyDone => Sys2Proof.Machine.execSurveyDone s
  | .tributaryCellTime n => Sys2Proof.Machine.execTributaryCellTime n s
  | .echo => Sys2Proof.Machine.execEcho s
  | .identify => Sys2Proof.Machine.execIdentify s
  | .readStatus => Sys2Proof.Machine.execReadStatus s
  | .restart => Sys2Proof.Machine.execRestart s
  | .unknownKind => Sys2Proof.Machine.execUnknownKind s
  | .selectEditPlan => Sys2Proof.Machine.execSelectEditPlan s
  | .writeSlots => Sys2Proof.Machine.execWriteSlots s
  | .setCycleLength => Sys2Proof.Machine.execSetCycleLength s
  | .writeTributaryEntry => Sys2Proof.Machine.execWriteTributaryEntry s
  | .setPlanOptions => Sys2Proof.Machine.execSetPlanOptions s
  | .copyPlan => Sys2Proof.Machine.execCopyPlan s
  | .readSlots => Sys2Proof.Machine.execReadSlots s
  | .readTributaryEntry => Sys2Proof.Machine.execReadTributaryEntry s
  | .readPlanOptions => Sys2Proof.Machine.execReadPlanOptions s
  | .switchPlan => Sys2Proof.Machine.execSwitchPlan s
  | .confirmPlan => Sys2Proof.Machine.execConfirmPlan s
  | .writePort turn => Sys2Proof.Machine.execWritePort s turn
  | .readPort => Sys2Proof.Machine.execReadPort s
  | .flushPort => Sys2Proof.Machine.execFlushPort s
  | .writeChannels => Sys2Proof.Machine.execWriteChannels s
  | .readChannel => Sys2Proof.Machine.execReadChannel s
  | .readCounters => Sys2Proof.Machine.execReadCounters s
  | .clearCounters => Sys2Proof.Machine.execClearCounters s
  | .startSurvey => Sys2Proof.Machine.execStartSurvey s
  | .stopSurvey => Sys2Proof.Machine.execStopSurvey s
  | .readSurvey => Sys2Proof.Machine.execReadSurvey s
  | .ackNotice => Sys2Proof.Machine.execAckNotice s
  | .setNoticeOptions => Sys2Proof.Machine.execSetNoticeOptions s

end Sys2Proof.Machine
end

