-- ==== Sys2Proof/Safety.lean ====
section
/-! DEFINITION. What a sound state of the part is, block by block: the laws the manual's prose says always hold.
Claims are stated in these terms, and each law is one that every step must keep. -/

namespace Sys2Proof.Safety

open Sys2Proof.Machine

/-! ## Receivers (section 1.6, R11, R36) -/

/-- The consecutive count lies in the range of the receiver's state (section 1.6). -/
def countOk (r : Receiver) : Prop :=
  match r.delineation with
  | .seek => r.count = 0
  | .confirm => 1 ≤ r.count ∧ r.count ≤ 3
  | .locked => r.count ≤ 4

/-- Counts in range, a running receiver without signal in SEEK, and each port's record true of its receiver (R11, R36). -/
def ReceiversOk (s : State) : Prop :=
  (∀ l : Link, countOk (receiver l s))
    ∧ (s.pins.hardReset = none → ∀ l : Link, hasSignal l s = false → (receiver l s).delineation = .seek)
    ∧ ∀ n : Trib, s.ports.rxLocked[n] = ((receiver (.tributary n) s).delineation == .locked)

/-! ## Cell store (R17, R19, R20) -/

/-- The cells held in the sixteen data queues. -/
def cellsHeld (s : State) : Nat :=
  (allTribs.map fun n => s.store.up[n].cells.length + s.store.down[n].length).sum

/-- An entry of the port table is in range (R35). -/
def portEntryOk (e : PortEntry) : Prop :=
  e.upFloor ≤ 64 ∧ e.downFloor ≤ 64 ∧ 1 ≤ e.upCeiling ∧ e.upCeiling ≤ 128 ∧ 1 ≤ e.downCeiling ∧ e.downCeiling ≤ 128
    ∧ e.upFloor ≤ e.upCeiling ∧ e.downFloor ≤ e.downCeiling

/-- Every buffer is free or in a queue, the free buffers are never fewer than the reserve, floors add up to at most 384, settings are in
range, and no queue holds more than 128 cells (R17, R19, R20, R35). -/
def StoreOk (s : State) : Prop :=
  s.store.free + cellsHeld s = Config.buffers
    ∧ s.reserve ≤ s.store.free
    ∧ floorSum s.ports.table ≤ Config.maxFloorSum
    ∧ (∀ n : Trib, portEntryOk s.ports.table[n])
    ∧ ∀ n : Trib, s.store.up[n].cells.length ≤ 128 ∧ s.store.down[n].length ≤ 128

/-! ## Uplink messages (R3, R18, R25, R26, R40) -/

/-- The message in progress after one more cell of a stream: a FIRST or SOLE may come only between messages and carries index 0; a MIDDLE
or LAST only within one, on its tag, with the next index (R3).
The outer `none` says that the cell does not fit. -/
def streamNext (current : Option HeadMessage) (c : Cell) : Option (Option HeadMessage) :=
  match current, c.position with
  | none, .first => if c.index = 0 then some (some { tag := c.tag, next := 1 }) else none
  | none, .sole => if c.index = 0 then some none else none
  | none, .middle => none
  | none, .last => none
  | some _, .first => none
  | some _, .sole => none
  | some h, .middle => if c.tag = h.tag ∧ c.index = h.next then some (some { tag := h.tag, next := c.index + 1 }) else none
  | some h, .last => if c.tag = h.tag ∧ c.index = h.next then some none else none

/-- The message in progress after a list of cells, if all fit. -/
def streamAfter : Option HeadMessage → List Cell → Option (Option HeadMessage)
  | current, [] => some current
  | current, c :: cs =>
    match streamNext current c with
    | some after => streamAfter after cs
    | none => none

/-- The message the ingress record says is open. -/
def openMessage : Ingress → Option HeadMessage
  | .idle => none
  | .opened tag _ _ _ next => some { tag := tag, next := next }
  | .discarding => none

/-- What has been sent of the head message, followed by the cells of Un, is a run of whole messages with at most the newest incomplete, and
that one is the message open at the port; and the complete-message count counts the queued end cells (R18, R25, R26). -/
def UplinkOk (s : State) : Prop :=
  ∀ n : Trib,
    streamAfter s.store.up[n].head s.store.up[n].cells = some (openMessage s.ports.ingress[n])
      ∧ s.store.up[n].complete = countEnds s.store.up[n].cells

/-! ## Ports and channel entries (R36, R37, R51, R111) -/

/-- A port that is not UP has an empty Dn and an IDLE ingress record, and a DISABLED port has an empty Un whose head message has not
started (R36, R37, R51). -/
def PortsOk (s : State) : Prop :=
  ∀ n : Trib,
    (s.ports.isUp n = false → s.store.down[n] = [] ∧ s.ports.ingress[n] = .idle)
      ∧ (s.ports.table[n].enable = false → s.store.up[n] = .empty)

/-- The channel map is in canonical form, and every OPEN entry is latched to a tributary that is UP (R111). -/
def ChannelsOk (s : State) : Prop :=
  s.channels.wf = true
    ∧ ∀ tag : Nat, ∀ n : Trib, (s.channels.get tag).current.openFor n = true → s.ports.isUp n = true

/-! ## Plan store and scheduler (R56, R58, R60, R72, R74, R81, R90, R92) -/

/-- The further items of the switch state are in range, and a SWITCH PLAN is in progress exactly in PENDING (R60, R72, R74). -/
def switchOk (ps : PlanStore) (e : Engine) : Prop :=
  match ps.switch with
  | .steady => e.inProgress = none
  | .pending target mode => target ≠ ps.run ∧ ps.plan[target].fault = none ∧ mode ≠ .trial 0 ∧ e.inProgress.isSome = true
  | .trial remaining fallback => remaining ≠ 0 ∧ fallback ≠ ps.run ∧ ps.plan[fallback].fault = none ∧ e.inProgress = none

/-- A plan's fields are in range (R56). -/
def planOk (p : Plan) : Prop :=
  8 ≤ p.length ∧ p.length ≤ 256 ∧ ∀ n : Trib, p.entries[n].tagBase.toNat ≤ 944 ∧ 1 ≤ p.entries[n].limit ∧ p.entries[n].limit ≤ 64

/-- Both plans are in range, the running plan is valid, the switch state is sound, and the slot position is one of the running plan's
(R56, R60, R81). -/
def PlansOk (s : State) : Prop :=
  (∀ p : PlanId, planOk s.plans.plan[p]) ∧ s.plans.running.fault = none ∧ switchOk s.plans s.engine
    ∧ s.scheduler.position < s.plans.running.length

/-- The borrow stack holds each tributary at most once, each with a complete head message that has started and no abandon entry; the
abandon list holds at most one entry per tributary, whose head message is not started (R90, R92). -/
def SchedulerOk (s : State) : Prop :=
  s.scheduler.borrow.Nodup
    ∧ (∀ n ∈ s.scheduler.borrow, 1 ≤ s.store.up[n].complete ∧ s.store.up[n].head.isSome = true)
    ∧ (s.scheduler.abandon.map AbandonEntry.trib).Nodup
    ∧ ∀ e ∈ s.scheduler.abandon, s.store.up[e.trib].head = none

/-! ## Engine (R128, R130, R137) -/

/-- The command queue and the response queue hold no more than their depth, an entry is reserved exactly while a command is in progress,
and the stored last response carries the last taken number when that command has completed (R128, R130, R137). -/
def EngineOk (s : State) : Prop :=
  s.engine.commands.length ≤ Config.commandDepth
    ∧ s.engine.entriesUsed ≤ Config.responseDepth
    ∧ s.engine.reserved = s.engine.inProgress.isSome
    ∧ (∀ c rest, s.engine.commands = rest ++ [c] → s.engine.lastTaken = some (c.seq, .queued))
    ∧ (∀ c, s.engine.commands = [] → s.engine.inProgress = some c → s.engine.lastTaken = some (c.seq, .executing))
    ∧ ∀ number, s.engine.lastTaken = some (number, .completed) → ∃ r, s.engine.stored = some r ∧ r.seq = number

/-! ## Notice list (R148, R149, R158) -/

/-- At most one record per kind and subject, at most 8 ordinary records and one lost marker, no two of one number, numbers and counts of
1..255, and options that name only kinds (R148, R149, R158). -/
def NoticesOk (s : State) : Prop :=
  (s.notices.records.map fun r => (r.kind, r.subject)).Nodup
    ∧ (s.notices.records.map NoticeRecord.number).Nodup
    ∧ s.notices.ordinary ≤ Config.noticeDepth
    ∧ (∀ r ∈ s.notices.records, r.number ≠ 0 ∧ r.count ≠ 0 ∧ (r.kind = .noticesLost → r.subject = 0))
    ∧ s.notices.counter ≠ 0
    ∧ s.notices.interval ≠ 0
    ∧ s.notices.mask &&& 0xF803#16 = 0x8002#16

/-! ## All of it -/

/-- A sound state of the part. -/
structure Sound (s : State) : Prop where
  receivers : ReceiversOk s
  store : StoreOk s
  uplink : UplinkOk s
  ports : PortsOk s
  channels : ChannelsOk s
  plans : PlansOk s
  scheduler : SchedulerOk s
  engine : EngineOk s
  notices : NoticesOk s

end Sys2Proof.Safety
end

