-- ==== Sys2Proof/Certificates/Slice0/Obligations.lean ====
section
/-! DEFINITION. The statements for the provers, each named by what it says, after the words they are said in.
What the manual leaves open and the model chooses is named, with its log entry, in the docstring of each statement that rests on it. -/

open Sys2Proof Sys2Proof.Machine Sys2Proof.Safety

namespace Sys2Proof.Claims

set_option Elab.async false

/-! ## Links -/

/-- Nothing changes but the receiver of one link. -/
def OnlyReceiver (l : Link) (s t : State) : Prop :=
  t = { s with links := t.links } ∧ t.links.trunkTx = s.links.trunkTx ∧ t.links.tribTx = s.links.tribTx
    ∧ (∀ k : Link, hasSignal k t = hasSignal k s) ∧ ∀ k : Link, k ≠ l → receiver k t = receiver k s

/-- The counter bank with one cell more discarded for its header: bad-header cells of the trunk, or malformed cells of Tn (R10). -/
def headerDiscarded (l : Link) (b : CounterBank) : CounterBank :=
  match l with
  | .trunk => { b with trunk := { b.trunk with badHeader := b.trunk.badHeader + 1 } }
  | .tributary n => { b with up := b.up.set n { b.up[n] with malformed := b.up[n].malformed + 1 } }

/-- A part that runs, with signal and a receiver of one state on a link, and bytes to test. -/
def Tests (l : Link) (d : Delineation) (bytes : List Byte) (width : Nat) (s : State) : Prop :=
  s.pins.hardReset = none ∧ hasSignal l s = true ∧ (receiver l s).delineation = d ∧ bytes.length = width

/-- Nothing changes on the links but the receiver and the signal of one of them. -/
def OtherLinksStand (l : Link) (s t : State) : Prop :=
  t.links.trunkTx = s.links.trunkTx ∧ t.links.tribTx = s.links.tribTx
    ∧ ∀ k : Link, k ≠ l → receiver k t = receiver k s ∧ hasSignal k t = hasSignal k s

/-- Nothing changes but the signal of one line. -/
def SignalOnly (l : Link) (s t : State) : Prop :=
  t = { s with links := t.links } ∧ OtherLinksStand l s t ∧ receiver l t = receiver l s

/-- The links after a receiver in LOCKED has found a valid header: its count is 0 and its next test 36 bytes on (R10). -/
def headerPassed (l : Link) (s : State) : Links :=
  match l with
  | .trunk => { s.links with trunkRx := { delineation := .locked, count := 0, position := s.links.trunkRx.position + 36 } }
  | .tributary n =>
    { s.links with
      tribRx := s.links.tribRx.set n { delineation := .locked, count := 0, position := s.links.tribRx[n].position + 36 } }

/-- Two postings of different blocks in one step, that of the turn's owner before or after the other (R147, R152). -/
def bothPosted (turn : Turn) (own other : State → State) (s : State) : State :=
  match turn with
  | .first => other (own s)
  | .last => own (other s)

/-- The posting that reports an entry to LOCKED: TRUNK_RX_CHANGE with detail 2, or the PORT_CHANGE of an enabled port that goes UP
(R12, R37). -/
def lockPosting (l : Link) (s : State) : State → State :=
  match l with
  | .trunk => post .trunkRxChange 0 2
  | .tributary n => if s.ports.table[n].enable then post .portChange (byteOf n.val) 2 else id

/-- The part with a receiver LOCKED where it stands, its port's record true of it (R12, R36). -/
def receiverLocked (l : Link) (s : State) : State :=
  match l with
  | .trunk =>
    { s with links := { s.links with trunkRx := { delineation := .locked, count := 0, position := s.links.trunkRx.position } } }
  | .tributary n =>
    { s with
      links :=
        { s.links with
          tribRx := s.links.tribRx.set n { delineation := .locked, count := 0, position := s.links.tribRx[n].position } }
      ports := { s.ports with rxLocked := s.ports.rxLocked.set n true } }

/-- The channel map after every OPEN entry that a test picks by its latched tributary is given up (R111, R119, R120). -/
def GivenUp (picked : Trib → Bool) (s t : State) : Prop :=
  ∀ tag : Nat, t.channels.get tag =
    { s.channels.get tag with
      current :=
        match (s.channels.get tag).current with
        | .opened n channel next =>
          if picked n then .discarding n channel next true else .opened n channel next
        | other => other }

/-- What a lock loss of the trunk does besides its receiver's own move, over the counters as its header test left them
(R10 to R12, R119, R173). -/
def TrunkLockLost (b : CounterBank) (s t : State) : Prop :=
  t.bank.trunk = { b.trunk with lockLosses := b.trunk.lockLosses + 1 }
    ∧ GivenUp (fun _ => true) s t
    ∧ (∀ n : Trib, t.bank.down[n] =
        { s.bank.down[n] with discarded := s.bank.down[n].discarded + BitVec.ofNat 32 (s.channels.openCount n) })
    ∧ t.bank.up = s.bank.up
    ∧ t.notices = (post .trunkRxChange 0 0 s).notices ∧ t.bank.management = (post .trunkRxChange 0 0 s).bank.management
    ∧ t.survey = (if s.survey.state = .running then { s.survey with lockLost := true } else s.survey)
    ∧ t.store = s.store ∧ t.ports = s.ports ∧ t.plans = s.plans ∧ t.scheduler = s.scheduler ∧ t.engine = s.engine
    ∧ t.pins = s.pins

/-! ## Offers and cuts -/

/-- An offer to Un is admitted (R20). -/
def RoomUp (n : Trib) (s : State) : Prop :=
  s.store.up[n].cells.length < s.ports.table[n].upCeiling
    ∧ (s.store.up[n].cells.length < s.ports.table[n].upFloor ∨ s.reserve < s.store.free)

/-- An offer to Dn is admitted (R20). -/
def RoomDown (n : Trib) (s : State) : Prop :=
  s.store.down[n].length < s.ports.table[n].downCeiling
    ∧ (s.store.down[n].length < s.ports.table[n].downFloor ∨ s.reserve < s.store.free)

/-- An offer to Un is refused: its ceiling is reached, or else a buffer is wanting (R21). -/
def RefusesUp (n : Trib) (full : Bool) (s : State) : Prop :=
  if full then s.ports.table[n].upCeiling ≤ s.store.up[n].cells.length
  else s.store.up[n].cells.length < s.ports.table[n].upCeiling ∧ s.ports.table[n].upFloor ≤ s.store.up[n].cells.length
    ∧ s.store.free ≤ s.reserve

/-- An offer to Dn is refused: its ceiling is reached, or else a buffer is wanting (R21). -/
def RefusesDown (n : Trib) (full : Bool) (s : State) : Prop :=
  if full then s.ports.table[n].downCeiling ≤ s.store.down[n].length
  else s.store.down[n].length < s.ports.table[n].downCeiling ∧ s.ports.table[n].downFloor ≤ s.store.down[n].length
    ∧ s.store.free ≤ s.reserve

/-- A refused offer to Un, counted and notified by its cause (R21). -/
def refusedUp (n : Trib) (full : Bool) (s : State) : State :=
  if full then
    post .uplinkDrops (byteOf n.val) 1
      { s with bank := { s.bank with up := s.bank.up.set n { s.bank.up[n] with queueFull := s.bank.up[n].queueFull + 1 } } }
  else
    post .uplinkDrops (byteOf n.val) 2
      { s with bank := { s.bank with up := s.bank.up.set n { s.bank.up[n] with noBuffer := s.bank.up[n].noBuffer + 1 } } }

/-- A refused offer to Dn, counted and notified by its cause (R21). -/
def refusedDown (n : Trib) (full : Bool) (s : State) : State :=
  if full then
    post .downlinkDrops (byteOf n.val) 1
      { s with bank := { s.bank with down := s.bank.down.set n { s.bank.down[n] with queueFull := s.bank.down[n].queueFull + 1 } } }
  else
    post .downlinkDrops (byteOf n.val) 2
      { s with bank := { s.bank with down := s.bank.down.set n { s.bank.down[n] with noBuffer := s.bank.down[n].noBuffer + 1 } } }

/-- One message more is counted discarded for Tn (R112, R115, R116). -/
def discarded (n : Trib) (s : State) : State :=
  { s with bank := { s.bank with down := s.bank.down.set n { s.bank.down[n] with discarded := s.bank.down[n].discarded + 1 } } }

/-- A cell joins the tail of Un in one buffer and is counted (R17, R20, R25). -/
def joinedUp (n : Trib) (c : Cell) (s : State) : State :=
  { s with
    store :=
      { s.store with
        free := s.store.free - 1
        up := s.store.up.set n
          { s.store.up[n] with
            cells := s.store.up[n].cells ++ [c]
            complete := s.store.up[n].complete + (if c.position = .last ∨ c.position = .sole then 1 else 0) } }
    bank := { s.bank with up := s.bank.up.set n { s.bank.up[n] with admitted := s.bank.up[n].admitted + 1 } } }

/-- A cell joins the tail of Dn in one buffer and is counted (R17, R20). -/
def joinedDown (n : Trib) (c : Cell) (s : State) : State :=
  { s with
    store := { s.store with free := s.store.free - 1, down := s.store.down.set n (s.store.down[n] ++ [c]) }
    bank := { s.bank with down := s.bank.down.set n { s.bank.down[n] with admitted := s.bank.down[n].admitted + 1 } } }

/-- A cell for a port that is not UP is dropped and counted (R112). -/
def droppedNotUp (n : Trib) (s : State) : State :=
  { s with bank := { s.bank with down := s.bank.down.set n { s.bank.down[n] with portNotUp := s.bank.down[n].portNotUp + 1 } } }

/-- A cell that does not continue its message is counted (R115). -/
def continuationError (s : State) : State :=
  { s with bank := { s.bank with trunk := { s.bank.trunk with continuation := s.bank.trunk.continuation + 1 } } }

/-- What a FIRST or SOLE gives up of the message an entry has in progress: an OPEN one is counted as a continuation error and discarded, and a
DISCARDING one was counted when it was given up (R113). -/
def givenUpBefore (current : Current) (s : State) : State :=
  match current with
  | .opened n _ _ => discarded n (continuationError s)
  | _ => s

/-- Two states agree in the cell store, the notice list and the counters. -/
def SameTraffic (s t : State) : Prop := t.store = s.store ∧ t.notices = s.notices ∧ t.bank = s.bank

/-- The cells of an uplink queue parted into the complete messages, which end with the newest queued LAST or SOLE, and the queued cells of
the open message (R27). -/
def Parted (cells complete rest : List Cell) : Prop :=
  cells = complete ++ rest ∧ (∀ c ∈ rest, c.position ≠ .last ∧ c.position ≠ .sole)
    ∧ ∀ c, complete.getLast? = some c → c.position = .last ∨ c.position = .sole

/-- The abandon entry owed when the open message of Tn is cut: one if it had started on the trunk with nothing complete ahead (R27). -/
def owedForOpen (n : Trib) (q : UpQueue) : List AbandonEntry :=
  if q.complete = 0 then
    match q.head with
    | some h => [{ trib := n, tag := h.tag, next := h.next }]
    | none => []
  else []

/-- The open message of Tn is cut: its queued cells go and their buffers return, its bookkeeping clears if it had started on the trunk with
nothing complete ahead, an abandon cell is then owed, and it is counted (R27).
`freed` is the number of buffers that return besides. -/
def OpenMessageCut (n : Trib) (freed : Nat) (s t : State) : Prop :=
  (∃ complete rest, Parted s.store.up[n].cells complete rest
      ∧ t.store.up = s.store.up.set n
        { s.store.up[n] with cells := complete, head := if s.store.up[n].complete = 0 then none else s.store.up[n].head }
      ∧ t.store.free = s.store.free + rest.length + freed)
    ∧ t.scheduler = { s.scheduler with abandon := s.scheduler.abandon ++ owedForOpen n s.store.up[n] }
    ∧ t.bank.up = s.bank.up.set n { s.bank.up[n] with messagesCut := s.bank.up[n].messagesCut + 1 }

/-- The open message of Tn is cut for a cause at an arrival from Tn, and MESSAGE_CUT posted; the rest of the cell store, the counters and the
notice list stands (R27). -/
def CutOnArrival (n : Trib) (cause : Byte) (s t : State) : Prop :=
  OpenMessageCut n 0 s t
    ∧ t.store.down = s.store.down ∧ t.bank.down = s.bank.down ∧ t.bank.trunk = s.bank.trunk
    ∧ t.notices = (post .messageCut (byteOf n.val) cause s).notices
    ∧ t.bank.management = (post .messageCut (byteOf n.val) cause s).bank.management

/-- The open message of Tn is cut at a continuation cell, which is dropped, over the part as the store's refusal of the cell, if it was
offered, has left it (R27, R43 to R45). -/
def CutAtCell (n : Trib) (c : Cell) (cause : Byte) (s t : State) : Prop :=
  CutOnArrival n cause s t
    ∧ t.ports = { s.ports with ingress := s.ports.ingress.set n (if c.position = .last then .idle else .discarding) }

/-- A FIRST or SOLE of Tn judged from IDLE: admitted, it joins Un on the tag given, and a FIRST opens the ingress record at one cell and index
1; refused, it is counted and notified, and a FIRST leaves the record DISCARDING. A SOLE leaves it IDLE (R40, R41). -/
def StartsUplink (n : Trib) (c : Cell) (tag : Tag) (limit : Nat) (s t : State) : Prop :=
  (RoomUp n s →
      SameTraffic (joinedUp n { c with tag := tag } s) t
        ∧ t.ports =
          { s.ports with
            ingress := s.ports.ingress.set n
              (if c.position = .first then .opened tag (c.tag.setWidth 6) limit 1 1 else .idle) })
    ∧ (∀ full : Bool, RefusesUp n full s →
      SameTraffic (refusedUp n full s) t
        ∧ t.ports = { s.ports with ingress := s.ports.ingress.set n (if c.position = .first then .discarding else .idle) })
    ∧ t.scheduler = s.scheduler

/-- One malformed cell more of Tn is counted (R41, R47). -/
def malformedCounted (n : Trib) (s : State) : State :=
  { s with bank := { s.bank with up := s.bank.up.set n { s.bank.up[n] with malformed := s.bank.up[n].malformed + 1 } } }

/-- What a lock loss of Tn does besides its receiver's own move: at an enabled port all of R38, at a DISABLED one only its record of the
receiver changes. -/
def PortLockLost (turn : Turn) (n : Trib) (s t : State) : Prop :=
  (s.ports.table[n].enable = true →
    t.ports = { s.ports with rxLocked := s.ports.rxLocked.set n false, ingress := s.ports.ingress.set n .idle }
      ∧ t.ports.state n = .down
      ∧ t.store.down = s.store.down.set n []
      ∧ (∀ tag channel limit admitted next, s.ports.ingress[n] = .opened tag channel limit admitted next →
        OpenMessageCut n s.store.down[n].length s t
          ∧ t.notices =
            (bothPosted turn (post .portChange (byteOf n.val) 1) (post .messageCut (byteOf n.val) 6) s).notices
          ∧ t.bank.management =
            (bothPosted turn (post .portChange (byteOf n.val) 1) (post .messageCut (byteOf n.val) 6) s).bank.management)
      ∧ ((∀ tag channel limit admitted next, s.ports.ingress[n] ≠ .opened tag channel limit admitted next) →
        t.store.up = s.store.up ∧ t.store.free = s.store.free + s.store.down[n].length ∧ t.scheduler = s.scheduler
          ∧ t.bank.up = s.bank.up ∧ t.notices = (post .portChange (byteOf n.val) 1 s).notices
          ∧ t.bank.management = (post .portChange (byteOf n.val) 1 s).bank.management)
      ∧ GivenUp (fun m => m == n) s t
      ∧ t.bank.down = s.bank.down.set n
        { s.bank.down[n] with discarded := s.bank.down[n].discarded + BitVec.ofNat 32 (s.channels.openCount n) }
      ∧ t.bank.trunk = s.bank.trunk)
    ∧ (s.ports.table[n].enable = false →
      t.ports = { s.ports with rxLocked := s.ports.rxLocked.set n false } ∧ t.store = s.store ∧ t.scheduler = s.scheduler
        ∧ t.channels = s.channels ∧ t.notices = s.notices ∧ t.bank = s.bank)
    ∧ OtherLinksStand (.tributary n) s t
    ∧ t.plans = s.plans ∧ t.engine = s.engine ∧ t.survey = s.survey ∧ t.pins = s.pins

/-- The messages a cut of all of Un ends: one for each queued LAST or SOLE, and one more if the newest queued cell is neither, or if no cell
is queued and the head message has started (R28). -/
def messagesOf (q : UpQueue) : Nat :=
  (q.cells.filter fun c => c.position == .last || c.position == .sole).length
    + match q.cells.getLast? with
      | some c => if c.position = .last ∨ c.position = .sole then 0 else 1
      | none => if q.head.isSome then 1 else 0

/-- The posting of a cut of all of Un: MESSAGE_CUT with its cause if it ends a message, and none otherwise (R28). -/
def cutPosting (n : Trib) (cause : Byte) (q : UpQueue) : State → State :=
  if messagesOf q = 0 then id else post .messageCut (byteOf n.val) cause

/-- The LAST+X conversion of a given-up message with the delivered flag set, offered to Dn of an UP port and judged, and dropped at any other
port (R21, R117). -/
def Converted (n : Trib) (channel : Channel) (next : Index) (s t : State) : Prop :=
  (s.ports.state n ≠ .up → SameTraffic (droppedNotUp n s) t)
    ∧ (s.ports.state n = .up → RoomDown n s →
      t.store =
          (joinedDown n { tag := channel.setWidth 10, position := .last, abandon := true, fill := 0, index := next, payload := [] }
            s).store
        ∧ t.notices = s.notices
        ∧ t.bank =
          { s.bank with
            down := s.bank.down.set n
              { s.bank.down[n] with
                admitted := s.bank.down[n].admitted + 1
                conversions := s.bank.down[n].conversions + 1 } })
    ∧ ∀ full : Bool, s.ports.state n = .up → RefusesDown n full s → SameTraffic (refusedDown n full s) t

/-- A data cell from the trunk moves the current part of its own channel entry, and nothing outside the cell store, the notice list, the
counters and the trunk receiver (R10, R111). -/
def EntryMoves (c : Cell) (current : Current) (s t : State) : Prop :=
  t.channels.get c.tag.toNat = { s.channels.get c.tag.toNat with current := current }
    ∧ (∀ tag : Nat, tag ≠ c.tag.toNat → t.channels.get tag = s.channels.get tag)
    ∧ t.links = headerPassed .trunk s
    ∧ t.ports = s.ports ∧ t.plans = s.plans ∧ t.scheduler = s.scheduler ∧ t.engine = s.engine ∧ t.survey = s.survey
    ∧ t.pins = s.pins ∧ t.store.up = s.store.up

/-! ## The notice list -/

/-- The number after a number: 255 is followed by 1, and 0 is skipped (R149). -/
def nextNumber (b : Byte) : Byte := if b = 255 then 1 else b + 1

/-- The number a new record takes: the counter's value if no record holds it, and otherwise the next value that none holds (R149). -/
def TakesNumber (records : List NoticeRecord) (counter number : Byte) : Prop :=
  ∃ passed : Nat, number = nextNumber^[passed] counter
    ∧ (∀ k : Nat, k < passed → ∃ r ∈ records, r.number = nextNumber^[k] counter)
    ∧ (∀ r ∈ records, r.number ≠ number) ∧ number ≠ 0

/-! ## The state a hard reset leaves -/

/-- The boot plan (R57). -/
def IsBootPlan (p : Plan) : Prop :=
  p.length = 8 ∧ p.owner 0 = .management ∧ (∀ k : Nat, 1 ≤ k → k < 256 → p.owner k = .openSlot)
    ∧ (∀ n : Trib, p.entries[n] = { rank := n, borrow := true, tagBase := BitVec.ofNat 10 (64 * n.val), limit := 64 })
    ∧ p.express = none ∧ p.overtake = false

/-- Every block in its starting state, the RESTARTED record with the detail of how the reset began
(R16, R34, R54, R57, R105, R126, R146, R160, R162, R176). -/
def StartingState (detail : Byte) (t : State) : Prop :=
  t.pins.hardReset = none
    ∧ (∀ l : Link, receiver l t = { delineation := .seek, count := 0, position := 0 })
    ∧ t.links.trunkTx = .boundary ∧ (∀ n : Trib, t.links.tribTx[n] = .boundary)
    ∧ t.store.free = 512 ∧ t.reserve = 0
    ∧ (∀ n : Trib, t.store.up[n] = { cells := [], complete := 0, head := none } ∧ t.store.down[n] = [])
    ∧ (∀ n : Trib, t.ports.table[n] = { enable := false, upFloor := 0, upCeiling := 32, downFloor := 0, downCeiling := 32 }
        ∧ t.ports.state n = .disabled ∧ t.ports.rxLocked[n] = false ∧ t.ports.ingress[n] = .idle)
    ∧ (∀ p : PlanId, IsBootPlan t.plans.plan[p]) ∧ t.plans.run = 0 ∧ t.plans.edit = 1 ∧ t.plans.switch = .steady
    ∧ t.scheduler.position = 0 ∧ t.scheduler.borrow = [] ∧ t.scheduler.abandon = []
    ∧ (∀ tag : Nat, t.channels.get tag = { mask := .none, trib := 0, channel := 0, current := .idle })
    ∧ t.engine = { commands := [], inProgress := none, placed := [], reserved := false, lastTaken := none, stored := none }
    ∧ t.notices =
      { records := [{ number := 1, kind := .restarted, subject := 0, count := 1, detail := detail, state := .waiting }]
        counter := 2, mask := 0x87FE, interval := 32 }
    ∧ (∀ g : CounterGroup, t.bank.values g = List.replicate 7 0)
    ∧ t.survey =
      { state := .idle, window := 0, own := Vector.replicate 8 0, borrowed := Vector.replicate 8 0, idle := 0, management := 0,
        abandon := 0, cycles := 0, planSwitched := false, lockLost := false, stopped := false }

/-! ## Commands -/

/-- A command of a kind heads the command queue with enough operand bytes, and the engine may execute it (R133). -/
def Ready (k : CommandKind) (c : TakenCommand) (rest : List TakenCommand) (s : State) : Prop :=
  s.pins.hardReset = none ∧ s.engine.inProgress = none ∧ s.engine.entriesUsed < 8 ∧ s.engine.commands = c :: rest
    ∧ c.kind = kindCode k ∧ operandsNeeded k c.operands ≤ c.operands.length

/-- The engine after a command has completed: it has left the queue, its response is placed last and stored, and the engine is free
(R133, R134). -/
def Completed (c : TakenCommand) (rest : List TakenCommand) (result : Result) (data : List Byte) (e e' : Engine) : Prop :=
  e'.commands = rest ∧ e'.inProgress = none ∧ e'.reserved = false
    ∧ e'.placed = e.placed ++ [{ kind := c.kind, seq := c.seq, result := result, repeated := false, data := data }]
    ∧ e'.stored = some { kind := c.kind, seq := c.seq, result := result, repeated := false, data := data }

/-- The last taken number with its standing after the command at work, with a queue behind it, takes a standing: moved if no command waits
behind it, which is the model's reading of 'if it is the last taken' (R133, R134; notes/assumptions/9.md). -/
def standingAt (standing : Standing) (rest : List TakenCommand) (e : Engine) : Option (Byte × Standing) :=
  if rest = [] then e.lastTaken.map fun p => (p.1, standing) else e.lastTaken

/-- A step answers the command and leaves the part as given, but for the engine. -/
def Answers (i : Instr) (c : TakenCommand) (rest : List TakenCommand) (result : Result) (data : List Byte) (s u : State) : Prop :=
  ∃ e : Engine, exec i s = .next { u with engine := e } ∧ Completed c rest result data s.engine e

/-- The kind of the command a step executes. -/
def kindOf : Instr → Option CommandKind
  | .echo => some .echo
  | .identify => some .identify
  | .readStatus => some .readStatus
  | .restart => some .restart
  | .selectEditPlan => some .selectEditPlan
  | .writeSlots => some .writeSlots
  | .setCycleLength => some .setCycleLength
  | .writeTributaryEntry => some .writeTributaryEntry
  | .setPlanOptions => some .setPlanOptions
  | .copyPlan => some .copyPlan
  | .readSlots => some .readSlots
  | .readTributaryEntry => some .readTributaryEntry
  | .readPlanOptions => some .readPlanOptions
  | .switchPlan => some .switchPlan
  | .confirmPlan => some .confirmPlan
  | .writePort _ => some .writePort
  | .readPort => some .readPort
  | .flushPort => some .flushPort
  | .writeChannels => some .writeChannels
  | .readChannel => some .readChannel
  | .readCounters => some .readCounters
  | .clearCounters => some .clearCounters
  | .startSurvey => some .startSurvey
  | .stopSurvey => some .stopSurvey
  | .readSurvey => some .readSurvey
  | .ackNotice => some .ackNotice
  | .setNoticeOptions => some .setNoticeOptions
  | _ => none

/-- The plan store with the edit plan replaced. -/
def editPlan (p : Plan) (s : State) : State :=
  { s with plans := { s.plans with plan := s.plans.plan.set s.plans.edit p } }

/-- A plan write may go through: the edit plan does not run, and no trial runs (R61). -/
def Editable (s : State) : Prop := s.plans.edit ≠ s.plans.run ∧ ∀ r f, s.plans.switch ≠ .trial r f

/-- The operands of a plan write are in their ranges (R63 to R67). -/
def PlanWriteInRange (k : CommandKind) (ops : List Byte) : Prop :=
  match k with
  | .writeSlots =>
    1 ≤ (byteAt ops 1).toNat ∧ (byteAt ops 1).toNat ≤ 24 ∧ (byteAt ops 0).toNat + (byteAt ops 1).toNat ≤ 256
      ∧ ∀ b ∈ (ops.drop 2).take (byteAt ops 1).toNat, b.toNat ≤ 9
  | .setCycleLength => 8 ≤ wordAt ops 0 ∧ wordAt ops 0 ≤ 256
  | .writeTributaryEntry =>
    (byteAt ops 0).toNat ≤ 7 ∧ (byteAt ops 1).toNat ≤ 7 ∧ (byteAt ops 2).toNat ≤ 1 ∧ wordAt ops 3 ≤ 944
      ∧ 1 ≤ (byteAt ops 5).toNat ∧ (byteAt ops 5).toNat ≤ 64
  | .setPlanOptions => ((byteAt ops 0).toNat ≤ 7 ∨ byteAt ops 0 = 0xFF) ∧ (byteAt ops 1).toNat ≤ 1
  | .copyPlan => True
  | _ => False

/-- The five plan writes (R61). -/
def planWrites : List Instr := [.writeSlots, .setCycleLength, .writeTributaryEntry, .setPlanOptions, .copyPlan]

/-- The code of the switch state (section 10.4). -/
def switchCode (ps : PlanStore) : Byte :=
  match ps.switch with
  | .steady => 0
  | .pending _ _ => 1
  | .trial _ _ => 2

/-- The operands of WRITE PORT name Tn and the five values of an entry in range (R50). -/
def PortOperands (n : Trib) (e : PortEntry) (ops : List Byte) : Prop :=
  byteAt ops 0 = byteOf n.val ∧ byteAt ops 1 = flagByte e.enable ∧ (byteAt ops 2).toNat = e.upFloor
    ∧ (byteAt ops 3).toNat = e.upCeiling ∧ (byteAt ops 4).toNat = e.downFloor ∧ (byteAt ops 5).toNat = e.downCeiling ∧ portEntryOk e

/-- The operands of WRITE PORT fail a range check (R50). -/
def PortOperandsBad (ops : List Byte) : Prop :=
  7 < (byteAt ops 0).toNat ∨ 1 < (byteAt ops 1).toNat ∨ 64 < (byteAt ops 2).toNat ∨ 64 < (byteAt ops 4).toNat
    ∨ (byteAt ops 3).toNat = 0 ∨ 128 < (byteAt ops 3).toNat ∨ (byteAt ops 5).toNat = 0 ∨ 128 < (byteAt ops 5).toNat
    ∨ (byteAt ops 3).toNat < (byteAt ops 2).toNat ∨ (byteAt ops 5).toNat < (byteAt ops 4).toNat

/-- The store has room for a port table (R32). -/
def RoomFor (table : Vector PortEntry 8) (s : State) : Prop := floorSum table ≤ 384 ∧ reserveOf table s.store ≤ s.store.free

/-- The operands of READ COUNTERS and CLEAR COUNTERS that name a group set (R167). -/
def groupOperands : CounterGroup → Byte × Byte
  | .uplink n => (0, byteOf n.val)
  | .downlink n => (1, byteOf n.val)
  | .trunk => (2, 0)
  | .management => (3, 0)

/-- The operands name a group set (R167). -/
def NamesGroup (ops : List Byte) (g : CounterGroup) : Prop := (byteAt ops 0, byteAt ops 1) = groupOperands g

/-- 28 bytes spell seven counters, most significant byte first (R167). -/
def SpellsCounters (data : List Byte) (values : List (BitVec 32)) : Prop :=
  data.length = 28 ∧ ∀ i j : Nat, i < 7 → j < 4 → byteAt data (4 * i + j) = (values.getD i 0).extractLsb' (24 - 8 * j) 8

/-! ## Slots -/

/-- A slot comes with no boundary in delivery, and its owner in the running plan is as given. -/
def SlotComes (o : Owner) (s : State) : Prop :=
  s.pins.hardReset = none ∧ s.scheduler.due = .none ∧ s.plans.running.owner s.scheduler.position = o

/-- A slot falls spare, with no boundary in delivery: it is OPEN; or its tributary has no abandon cell owed and an empty uplink queue; or it is
MANAGEMENT with no response placed and no notice eligible (R84 to R86, R153). -/
def SpareSlot (s : State) : Prop :=
  SlotComes .openSlot s
    ∨ (∃ n : Trib, SlotComes (.trib n) s ∧ (∀ e ∈ s.scheduler.abandon, e.trib ≠ n) ∧ s.store.up[n].cells = [])
    ∨ (SlotComes .management s ∧ s.engine.placed = []
      ∧ ∀ r ∈ s.notices.records, ∃ timer, r.state = .sent timer ∧ timer.toNat < s.notices.interval.toNat)

/-- The position moves on, or the boundary after the last slot becomes due at every block (R81; notes/assumptions/6.md). -/
def SlotCounted (s t : State) : Prop :=
  if s.scheduler.position + 1 < s.plans.running.length then
    t.scheduler.position = s.scheduler.position + 1 ∧ t.scheduler.due = s.scheduler.due
  else
    t.scheduler.position = s.scheduler.position
      ∧ t.scheduler.due = { scheduler := true, plan := true, notices := true, survey := true }

/-- The survey record with one slot of a kind more (R172). -/
def surveyed (k : SlotKind) (v : Survey) : Survey :=
  match k with
  | .own n => { v with own := v.own.set n (saturate16 v.own[n]) }
  | .borrowed n => { v with borrowed := v.borrowed.set n (saturate16 v.borrowed[n]) }
  | .abandon => { v with abandon := saturate16 v.abandon }
  | .management => { v with management := saturate16 v.management }
  | .idle => { v with idle := saturate16 v.idle }

/-- A slot carries a cell and is reported by its kind; blocks a slot never touches stand (R83, R103, R172). -/
def SlotCarries (c : Cell) (k : SlotKind) (s t : State) : Prop :=
  t.links = { s.links with trunkTx := .sending c } ∧ SlotCounted s t ∧ t.scheduler.cycle = s.scheduler.cycle
    ∧ t.survey = (if s.survey.state = .running then surveyed k s.survey else s.survey)
    ∧ t.pending = s.pending ∧ t.pins = s.pins ∧ t.ports = s.ports ∧ t.plans = s.plans ∧ t.channels = s.channels

/-- The head cell of Un is taken for the trunk: one buffer returns, and the bookkeeping follows the cell's position (R23, R25, R26). -/
def TakenForTrunk (n : Trib) (c : Cell) (rest : List Cell) (s t : State) : Prop :=
  t.store =
    { s.store with
      free := s.store.free + 1
      up := s.store.up.set n
        { cells := rest
          complete :=
            match c.position with
            | .last => s.store.up[n].complete - 1
            | .sole => s.store.up[n].complete - 1
            | _ => s.store.up[n].complete
          head :=
            match c.position with
            | .first => some { tag := c.tag, next := 1 }
            | .middle => some { tag := (s.store.up[n].head.map HeadMessage.tag).getD c.tag, next := c.index + 1 }
            | .last => none
            | .sole => none } }

/-- The result codes (section 10.4). -/
def resultByte : Result → Byte
  | .ok => 0
  | .unknownKind => 1
  | .length => 2
  | .range => 3
  | .inUse => 4
  | .state => 5
  | .invalidPlan => 6
  | .noRoom => 7

/-- A response as it goes on the trunk: tag 1022, SOLE, X 0, index 0, fill 4 and the data; kind with bit 7 inverted, sequence number, result
code, and bit 0 of the flags byte set in a repeat (R89, R179). -/
def responseCell (r : Response) : Cell :=
  { tag := 1022, position := .sole, abandon := false, fill := BitVec.ofNat 6 (4 + r.data.length), index := 0,
    payload := [r.kind ^^^ 0x80, r.seq, resultByte r.result, if r.repeated then 1 else 0] ++ r.data }

/-- The notice kind codes (section 10.4). -/
def noticeByte : NoticeKind → Byte
  | .restarted => 1
  | .portChange => 2
  | .trunkRxChange => 3
  | .uplinkDrops => 4
  | .downlinkDrops => 5
  | .messageCut => 6
  | .planSwitched => 7
  | .planReverted => 8
  | .surveyDone => 9
  | .commandOverrun => 10
  | .noticesLost => 15

/-- A notice as it goes on the trunk: tag 1022, SOLE, X 0, index 0, fill 6; 0xE0, number, kind code, subject, count and detail (R89, R180). -/
def noticeCell (r : NoticeRecord) : Cell :=
  { tag := 1022, position := .sole, abandon := false, fill := 6, index := 0,
    payload := [0xE0, r.number, noticeByte r.kind, r.subject, r.count, r.detail] }

/-- A tributary is a candidate for spare slots (R93). -/
def Candidate (s : State) (n : Trib) : Prop :=
  s.ports.table[n].enable = true ∧ s.plans.running.entries[n].borrow = true ∧ (∀ e ∈ s.scheduler.abandon, e.trib ≠ n)
    ∧ n ∉ s.scheduler.borrow ∧ 1 ≤ s.store.up[n].complete

/-- The order of R94 as one number: express first, then rank, then tributary number; the lowest is best. -/
def order (p : Plan) (n : Trib) : Nat := (if p.express = some n then 0 else 64) + 8 * p.entries[n].rank.val + n.val

/-- Candidate c qualifies above the top h (R95). -/
def Qualifies (p : Plan) (h c : Trib) : Prop :=
  (p.express = some c ∧ p.express ≠ some h) ∨ (p.overtake = true ∧ p.entries[c].rank < p.entries[h].rank ∧ p.express ≠ some h)

/-! ## Boundaries -/

/-- A boundary is in delivery and no block has taken it yet. -/
def BoundaryComes (s : State) : Prop :=
  s.pins.hardReset = none ∧ s.scheduler.due = { scheduler := true, plan := true, notices := true, survey := true }

/-- A boundary is delivered to every block but those that take it later by its order: the position is 0, one cycle more is counted, the due
flags say who has still to take it, and the blocks a boundary never touches stand (R81, R82; notes/assumptions/6.md, 7.md). -/
def BoundaryDelivered (order : BoundaryOrder) (s t : State) : Prop :=
  t.scheduler =
      { s.scheduler with
        position := 0
        cycle := s.scheduler.cycle + 1
        due := { scheduler := false, plan := false, notices := order.noticesLate, survey := order.survey == .late } }
    ∧ t.store = s.store ∧ t.ports = s.ports ∧ t.channels = s.channels ∧ t.links = s.links ∧ t.pins = s.pins
    ∧ t.pending = s.pending

/-- A record after one boundary more: a SENT record's timer rises by one up to 255 (R155). -/
def timed (r : NoticeRecord) : NoticeRecord :=
  match r.state with
  | .waiting => r
  | .sent timer => { r with state := .sent (if timer = 255 then 255 else timer + 1) }

/-- The part with the boundary still due at the notice list, or not (notes/assumptions/6.md). -/
def withNoticesDue (due : Bool) (s : State) : State :=
  { s with scheduler := { s.scheduler with due := { s.scheduler.due with notices := due } } }

/-- A notice list after a boundary, or as it is where it takes the boundary only after slot 0 (R155). -/
def timedUnless (late : Bool) (l : NoticeList) : NoticeList := if late then l else { l with records := l.records.map timed }

/-- The boundary completes the window of a RUNNING survey (R171). -/
def WindowEnds (v : Survey) : Prop := v.state = .running ∧ v.window ≠ 0 ∧ saturate16 v.cycles = v.window

/-- The survey after a boundary (R171). -/
def boundaryTaken (v : Survey) : Survey :=
  match v.state with
  | .idle => v
  | .armed => { v with state := .running }
  | .running =>
    { v with
      cycles := saturate16 v.cycles
      state := if v.window ≠ 0 ∧ saturate16 v.cycles = v.window then .done else .running }
  | .done => v

/-- The survey takes a boundary and no other block does (R171; notes/assumptions/6.md). -/
def SurveyTakesAlone (s t : State) : Prop :=
  t.survey = boundaryTaken s.survey ∧ t.scheduler = { s.scheduler with due := { s.scheduler.due with survey := false } }
    ∧ t.store = s.store ∧ t.plans = s.plans ∧ t.engine = s.engine ∧ t.channels = s.channels ∧ t.ports = s.ports
    ∧ t.links = s.links ∧ t.pins = s.pins ∧ t.pending = s.pending

/-- The survey after a switch or revert is reported to it (R173). -/
def planReported (v : Survey) : Survey := if v.state = .running then { v with planSwitched := true } else v

/-- The survey after a boundary at which the running plan changes, by when it takes the boundary (R173). -/
def surveyAtSwitch (turn : SurveyTurn) (v : Survey) : Survey :=
  match turn with
  | .alone => boundaryTaken v
  | .beforePlan => planReported (boundaryTaken v)
  | .afterPlan => boundaryTaken (planReported v)
  | .late => planReported v

/-- The postings of a boundary at which the running plan changes: the plan store's, and SURVEY_DONE in either order beside it when the survey
takes the boundary too and its window ends (R147, R152, R171). -/
def SwitchPosted (order : BoundaryOrder) (planPosting : State → State) (s t : State) : Prop :=
  (WindowEnds s.survey → (order.survey = .beforePlan ∨ order.survey = .afterPlan) →
      t.notices = timedUnless order.noticesLate (bothPosted order.surveyPost (post .surveyDone 0 0) planPosting s).notices
        ∧ t.bank = (bothPosted order.surveyPost (post .surveyDone 0 0) planPosting s).bank)
    ∧ (¬WindowEnds s.survey ∨ order.survey = .late →
      t.notices = timedUnless order.noticesLate (planPosting s).notices ∧ t.bank = (planPosting s).bank)

end Sys2Proof.Claims

open Sys2Proof.Claims

/-! ## The step and the invariants -/

/-- A step takes the command at the front of the queue and runs it on the state with the queue's rest: that commands wait in one queue,
first in first out, and that none comes but from it, is the model's choice and no rule of the spec
(notes/assumptions/13.md, notes/assumptions/10.md). -/
def Obligations.StepRunsFrontCommand : Prop :=
  ∀ (i : Instr) (rest : List Instr) (s : State), s.pending = i :: rest → step s = exec i { s with pending := rest }

/-- The state right after reset is sound (its values named by the model: notes/assumptions/3.md, 4.md). -/
def Obligations.ResetStateIsSound : Prop := Sound State.reset

/-- Receiver counts stay in range, a running receiver without signal stays in SEEK, and each port's record stays true of its receiver. -/
def Obligations.StepKeepsReceivers : Prop := ∀ s t : State, ReceiversOk s → step s = .next t → ReceiversOk t

/-- Free buffers and queued cells always add up to 512, and the free buffers are never fewer than the reserve, over every step. -/
def Obligations.StepKeepsStoreLaw : Prop := ∀ s t : State, StoreOk s → step s = .next t → StoreOk t

/-- What has been sent of the head message and the cells of Un stay a run of whole messages, at most the newest incomplete and open at the
port, and the complete-message count stays true. -/
def Obligations.StepKeepsUplinkMessagesWhole : Prop := ∀ s t : State, UplinkOk s → step s = .next t → UplinkOk t

/-- A port that is not UP keeps an empty Dn and an IDLE ingress record, and a DISABLED port an empty Un; the premises rule out states in
which an entry is OPEN towards, or a receiver LOCKED behind, a port that is not UP. -/
def Obligations.StepKeepsClosedPortsEmpty : Prop :=
  ∀ s t : State, ReceiversOk s → ChannelsOk s → PortsOk s → step s = .next t → PortsOk t

/-- The channel map stays in canonical form, which is the model's representation of it (notes/assumptions/14.md), and an OPEN entry stays
latched to a tributary that is UP (R111, R112, R120). -/
def Obligations.StepKeepsOpenChannelsUp : Prop := ∀ s t : State, ChannelsOk s → step s = .next t → ChannelsOk t

/-- The running plan stays valid, a SWITCH PLAN is in progress exactly in PENDING, a trial's items stay in range, and the slot position stays
one of the running plan's. -/
def Obligations.StepKeepsRunningPlanValid : Prop := ∀ s t : State, PlansOk s → step s = .next t → PlansOk t

/-- Every holder of the borrow stack stays a tributary with a complete, started head message, and every abandon entry one whose head message
is not started; neither list repeats a tributary. -/
def Obligations.StepKeepsBorrowStackLaw : Prop :=
  ∀ s t : State, UplinkOk s → SchedulerOk s → step s = .next t → SchedulerOk t

/-- The command queue never holds more than 4, the response queue never more than 8, and the stored last response carries the last taken
number whenever that command has completed. -/
def Obligations.StepKeepsEngineQueues : Prop := ∀ s t : State, EngineOk s → step s = .next t → EngineOk t

/-- The notice list keeps at most one record per kind and subject, at most 8 ordinary records, and no two records of one number. -/
def Obligations.StepKeepsNoticeList : Prop := ∀ s t : State, NoticesOk s → step s = .next t → NoticesOk t

/-- No step but the end of a hard reset changes the contents of the running plan, and none of either plan while a trial runs (R61); and the
run selector changes only when the plan store takes a boundary or a hard reset ends (R58). -/
def Obligations.RunningPlanStandsBetweenBoundaries : Prop :=
  ∀ (i : Instr) (s t : State), exec i s = .next t →
    (i ≠ .hardResetEnd →
      t.plans.plan[s.plans.run] = s.plans.plan[s.plans.run]
        ∧ ((∃ r f, s.plans.switch = .trial r f) → t.plans.plan = s.plans.plan))
    ∧ (t.plans.run ≠ s.plans.run → i = .planReverted ∨ i = .hardResetEnd ∨ ∃ o, i = .cycleBoundary o)

/-- Every cell with a payload as long as its fill goes onto the line as 36 bytes with a valid header, and is read back from them as it was
sent. -/
def Obligations.CellSurvivesTheLine : Prop :=
  ∀ c : Cell, c.fill.toNat ≤ 32 → c.payload.length = c.fill.toNat →
    c.wire.length = 36 ∧ headerValid c.wire = true ∧ decodeCell c.wire = c

/-! ## Links -/

/-- In SEEK a valid header enters CONFIRM with count 1 and the next header 36 bytes on, and an invalid one moves the candidate on by a byte; in
CONFIRM a valid header that does not complete the count raises it, and an invalid one returns to SEEK one byte into the cell; nothing is handed
on and nothing else changes (R8, R9). -/
def Obligations.HeaderTestsBeforeLock : Prop :=
  ∀ (l : Link) (bytes : List Byte) (s : State),
    (Tests l .seek bytes 4 s →
      ∃ t, exec (.seekHeaderTest l bytes) s = .next t ∧ OnlyReceiver l s t
        ∧ receiver l t =
          if headerValid bytes then { delineation := .confirm, count := 1, position := (receiver l s).position + 36 }
          else { delineation := .seek, count := 0, position := (receiver l s).position + 1 })
    ∧ ∀ turn : Turn, (Tests l .confirm bytes 36 s → (headerValid bytes = true → (receiver l s).count < 3) →
      ∃ t, exec (.confirmHeaderTest l bytes turn) s = .next t ∧ OnlyReceiver l s t
        ∧ receiver l t =
          if headerValid bytes then
            { delineation := .confirm, count := (receiver l s).count + 1, position := (receiver l s).position + 36 }
          else { delineation := .seek, count := 0, position := (receiver l s).position + 1 })

/-- The fourth consecutive valid header locks a receiver: the trunk's posts TRUNK_RX_CHANGE with detail 2; that of Tn is recorded by its port,
and an enabled port goes UP with a PORT_CHANGE posted and no queue changed (R9, R12, R37). The cell that completed the count is handed on as
LOCKED_HEADER_TEST hands on the first cell of a LOCKED receiver, the posting before or after those made for that cell; an idle cell is not
handed on (R12, R147). -/
def Obligations.FourthHeaderLocksReceiver : Prop :=
  ∀ (l : Link) (bytes : List Byte) (turn : Turn) (s : State), Tests l .confirm bytes 36 s → (receiver l s).count = 3 →
    headerValid bytes = true → (∀ n : Trib, l = .tributary n → s.ports.rxLocked[n] = false) →
    ∃ t, exec (.confirmHeaderTest l bytes turn) s = .next t
      ∧ t.links = headerPassed l s
      ∧ (∀ n : Trib, l = .tributary n →
          t.ports.rxLocked = s.ports.rxLocked.set n true ∧ t.ports.table = s.ports.table
            ∧ (s.ports.table[n].enable = true → t.ports.state n = .up))
      ∧ (match turn with
        | .first => exec (.lockedHeaderTest l bytes [] turn) (lockPosting l s (receiverLocked l s)) = .next t
        | .last => ∃ u, exec (.lockedHeaderTest l bytes [] turn) (receiverLocked l s) = .next u ∧ t = lockPosting l s u)
      ∧ ((decodeCell bytes).tag = 1023 →
          t.ports = (receiverLocked l s).ports ∧ t.notices = (lockPosting l s s).notices ∧ t.bank = (lockPosting l s s).bank
            ∧ t.store = s.store ∧ t.plans = s.plans ∧ t.scheduler = s.scheduler ∧ t.channels = s.channels ∧ t.engine = s.engine
            ∧ t.survey = s.survey ∧ t.pins = s.pins)

/-- In LOCKED a valid header of an idle cell sets the count to 0, and an invalid one before the fifth is counted and raises it; the cell
reaches no other block (R6, R10). -/
def Obligations.LockedTestCountsBadHeaders : Prop :=
  ∀ (l : Link) (bytes : List Byte) (turn : Turn) (between : List StoreEvent) (s : State), Tests l .locked bytes 36 s →
    (headerValid bytes = true → (decodeCell bytes).tag = 1023 →
      ∃ t, exec (.lockedHeaderTest l bytes between turn) s = .next t ∧ OnlyReceiver l s t
        ∧ receiver l t = { delineation := .locked, count := 0, position := (receiver l s).position + 36 })
      ∧ (headerValid bytes = false → (receiver l s).count < 4 →
        ∃ t, exec (.lockedHeaderTest l bytes between turn) s = .next t
          ∧ receiver l t = { delineation := .locked, count := (receiver l s).count + 1, position := (receiver l s).position + 36 }
          ∧ t = { s with links := t.links, bank := headerDiscarded l s.bank }
          ∧ ∀ k : Link, k ≠ l → receiver k t = receiver k s)

/-- Lock loss of the trunk, by the fifth consecutive bad header or by signal loss: the receiver seeks, from the second byte of that header or
from the first byte recovered; lock losses rise, and bad-header cells for the header alone; every OPEN channel entry is given up and counted
to its tributary, TRUNK_RX_CHANGE is posted, and a RUNNING survey is told (R10 to R12, R119, R173). That the first byte recovered is numbered
0 is the model's choice (notes/assumptions/11.md), and so is that DISCARDING entries stand (notes/assumptions/21.md). -/
def Obligations.TrunkLockLossReachesEveryBlock : Prop :=
  ∀ (turn : Turn) (s : State), s.pins.hardReset = none → s.links.trunkRx.delineation = .locked → s.channels.wf = true →
    (∀ (bytes : List Byte) (between : List StoreEvent), s.links.trunkSignal = true → bytes.length = 36 → s.links.trunkRx.count = 4 →
      headerValid bytes = false →
      ∃ t, exec (.lockedHeaderTest .trunk bytes between turn) s = .next t
        ∧ t.links = { s.links with trunkRx := { delineation := .seek, count := 0, position := s.links.trunkRx.position + 1 } }
        ∧ TrunkLockLost (headerDiscarded .trunk s.bank) s t)
    ∧ ∃ t, exec (.signalLoss .trunk turn) s = .next t
      ∧ t.links = { s.links with trunkRx := { delineation := .seek, count := 0, position := 0 }, trunkSignal := false }
      ∧ TrunkLockLost s.bank s t

/-- Lock loss of Tn, by the fifth consecutive bad header, which is counted malformed, or by signal loss, which counts none (R10, R11): an
enabled port goes DOWN, its open message is cut as link lost, Dn is flushed, its OPEN channel entries are given up and PORT_CHANGE is posted,
before or after the store's MESSAGE_CUT as the operand says; complete messages and other tributaries are untouched (R27, R31, R38, R120). At a
DISABLED port only its record of the receiver changes (R38). That both postings are taken in the step of the lock loss is the model's choice
(notes/assumptions/17.md), and so is that the first byte recovered is numbered 0 (notes/assumptions/11.md). -/
def Obligations.LockLossTakesPortDown : Prop :=
  ∀ (n : Trib) (turn : Turn) (s : State), s.pins.hardReset = none → (receiver (.tributary n) s).delineation = .locked →
    s.ports.rxLocked[n] = true → s.channels.wf = true →
    (∀ (bytes : List Byte) (between : List StoreEvent), hasSignal (.tributary n) s = true → bytes.length = 36 →
      (receiver (.tributary n) s).count = 4 → headerValid bytes = false →
      ∃ t, exec (.lockedHeaderTest (.tributary n) bytes between turn) s = .next t
        ∧ receiver (.tributary n) t = { delineation := .seek, count := 0, position := (receiver (.tributary n) s).position + 1 }
        ∧ hasSignal (.tributary n) t = true
        ∧ PortLockLost turn n { s with bank := headerDiscarded (.tributary n) s.bank } t)
    ∧ ∃ t, exec (.signalLoss (.tributary n) turn) s = .next t
      ∧ receiver (.tributary n) t = { delineation := .seek, count := 0, position := 0 }
      ∧ hasSignal (.tributary n) t = false
      ∧ PortLockLost turn n s t

/-- A receiver that is not LOCKED returns to SEEK when its signal goes, and searches from the first byte recovered when signal returns; no
other block is told (R11). That this byte is numbered 0 is the model's choice (notes/assumptions/11.md). -/
def Obligations.SignalOfUnlockedReceiver : Prop :=
  ∀ (l : Link) (s : State), s.pins.hardReset = none → (receiver l s).delineation ≠ .locked →
    (∀ turn : Turn, ∃ t, exec (.signalLoss l turn) s = .next t ∧ hasSignal l t = false
        ∧ receiver l t = { delineation := .seek, count := 0, position := 0 }
        ∧ t = { s with links := t.links } ∧ ∀ k : Link, k ≠ l → receiver k t = receiver k s ∧ hasSignal k t = hasSignal k s)
      ∧ (hasSignal l s = false →
        ∃ t, exec (.signalReturn l) s = .next t ∧ hasSignal l t = true
          ∧ receiver l t = { delineation := .seek, count := 0, position := 0 }
          ∧ t = { s with links := t.links } ∧ ∀ k : Link, k ≠ l → receiver k t = receiver k s ∧ hasSignal k t = hasSignal k s)

/-- Power-on begins a hard reset, and so does a falling edge of RESET_N unless one is in progress, whose cause stands; every transmitter goes
silent, and a SWITCH PLAN or trial in progress is ended (R16, R57, R181). That the notices, the placed responses and the plans' contents stand
until the reset ends, and that power-on during a reset makes it one by power-on, are the model's choices (notes/assumptions/12.md). While it
lasts, nothing but the pins and the signal of a line changes: no header test, slot, boundary, cell time or execution does anything (R16), a step
of one being the model's way to say so (notes/assumptions/2.md, 4.md). -/
def Obligations.HardResetBeginsAndStillsThePart : Prop :=
  ∀ s : State,
    (∃ t, exec .powerOn s = .next t ∧ t.pins.hardReset = some .powerOn ∧ t.links.trunkTx = .silent
        ∧ (∀ n : Trib, t.links.tribTx[n] = .silent) ∧ t.plans = { s.plans with switch := .steady } ∧ t.engine.inProgress = none
        ∧ t.notices = s.notices ∧ t.engine.placed = s.engine.placed)
      ∧ (s.pins.hardReset = none →
        ∃ t, exec .resetN s = .next t ∧ t.pins.hardReset = some .resetPin ∧ t.pins.resetNHigh = false
          ∧ t.links.trunkTx = .silent ∧ (∀ n : Trib, t.links.tribTx[n] = .silent)
          ∧ t.plans = { s.plans with switch := .steady } ∧ t.engine.inProgress = none
          ∧ t.notices = s.notices ∧ t.engine.placed = s.engine.placed)
      ∧ ∀ cause, s.pins.hardReset = some cause →
        exec .resetN s = .next { s with pins := { s.pins with resetNHigh := false } }
          ∧ (∀ i : Instr, i ≠ .powerOn → i ≠ .resetN → i ≠ .hardResetEnd → (∀ l turn, i ≠ .signalLoss l turn) →
            (∀ l, i ≠ .signalReturn l) → exec i s = .next s)
          ∧ ∀ (l : Link) (turn : Turn),
            (∃ t, exec (.signalLoss l turn) s = .next t ∧ SignalOnly l s t ∧ hasSignal l t = false)
              ∧ ∃ t, exec (.signalReturn l) s = .next t ∧ SignalOnly l s t ∧ hasSignal l t = true

/-- The end of a hard reset leaves every block in its starting state, with RESTARTED as record 1 and how the reset began as its detail; and
the model's state after reset is one (that it follows power-on, and the signals and waiting commands it keeps, are the model's choices:
notes/assumptions/3.md, 4.md). -/
def Obligations.HardResetEndsInStartingState : Prop :=
  (∀ (s : State) (cause : ResetCause), s.pins.hardReset = some cause →
    ∃ t, exec .hardResetEnd s = .next t
      ∧ StartingState (match cause with | .powerOn => 1 | .resetPin => 2) t
      ∧ t.pending = s.pending ∧ ∀ l : Link, hasSignal l t = hasSignal l s)
    ∧ StartingState 1 State.reset

/-! ## The cell store and the notice list -/

/-- An offer is admitted below the ceiling when the queue is below its floor or the free buffers exceed the reserve: the cell joins the tail
in one buffer and *cells admitted* rises (R20). A refused offer stores nothing: at the ceiling it is counted QUEUE_FULL and notified with
detail 1, and otherwise counted NO_BUFFER and notified with detail 2 (R21). Nothing else changes. -/
def Obligations.OfferIsJudgedAndCounted : Prop :=
  ∀ (n : Trib) (c : Cell) (s : State),
    (s.store.up[n].cells.length < s.ports.table[n].upCeiling →
      (s.store.up[n].cells.length < s.ports.table[n].upFloor ∨ s.reserve < s.store.free) →
      offerUp n c s =
        { s with
          store :=
            { s.store with
              free := s.store.free - 1
              up := s.store.up.set n
                { s.store.up[n] with
                  cells := s.store.up[n].cells ++ [c]
                  complete := s.store.up[n].complete + (if c.position = .last ∨ c.position = .sole then 1 else 0) } }
          bank := { s.bank with up := s.bank.up.set n { s.bank.up[n] with admitted := s.bank.up[n].admitted + 1 } } })
      ∧ (s.store.down[n].length < s.ports.table[n].downCeiling →
        (s.store.down[n].length < s.ports.table[n].downFloor ∨ s.reserve < s.store.free) →
        offerDown n c s =
          { s with
            store := { s.store with free := s.store.free - 1, down := s.store.down.set n (s.store.down[n] ++ [c]) }
            bank := { s.bank with down := s.bank.down.set n { s.bank.down[n] with admitted := s.bank.down[n].admitted + 1 } } })
      ∧ (s.ports.table[n].upCeiling ≤ s.store.up[n].cells.length →
      offerUp n c s =
        post .uplinkDrops (byteOf n.val) 1
          { s with bank := { s.bank with up := s.bank.up.set n { s.bank.up[n] with queueFull := s.bank.up[n].queueFull + 1 } } })
      ∧ (s.store.up[n].cells.length < s.ports.table[n].upCeiling → s.ports.table[n].upFloor ≤ s.store.up[n].cells.length →
        s.store.free ≤ s.reserve →
        offerUp n c s =
          post .uplinkDrops (byteOf n.val) 2
            { s with bank := { s.bank with up := s.bank.up.set n { s.bank.up[n] with noBuffer := s.bank.up[n].noBuffer + 1 } } })
      ∧ (s.ports.table[n].downCeiling ≤ s.store.down[n].length →
        offerDown n c s =
          post .downlinkDrops (byteOf n.val) 1
            { s with bank :=
              { s.bank with down := s.bank.down.set n { s.bank.down[n] with queueFull := s.bank.down[n].queueFull + 1 } } })
      ∧ (s.store.down[n].length < s.ports.table[n].downCeiling → s.ports.table[n].downFloor ≤ s.store.down[n].length →
        s.store.free ≤ s.reserve →
        offerDown n c s =
          post .downlinkDrops (byteOf n.val) 2
            { s with bank :=
              { s.bank with down := s.bank.down.set n { s.bank.down[n] with noBuffer := s.bank.down[n].noBuffer + 1 } } })

/-- A posting the mask clears does nothing; one whose pair has a record raises that record's count up to 255, gives it its detail and makes it
WAITING in its place; one for a new pair joins the tail as a record of count 1, numbered by the counter's value if no record holds it and
otherwise by the next that none holds, and the counter moves on past it; and one that finds 8 ordinary records is lost, counted, and recorded
in the lost marker, which is numbered so when it is new (R147, R149 to R151). That a value in use is passed over at the creation that would give
it, and not as the counter moves on to it, is the model's choice (notes/assumptions/22.md). -/
def Obligations.PostingFollowsItsCase : Prop :=
  ∀ (kind : NoticeKind) (subject detail : Byte) (s : State), kind ≠ .noticesLost →
    (kind ≠ .restarted → s.notices.mask.getLsbD kind.code = false → post kind subject detail s = s)
      ∧ (s.notices.passes kind = true →
        (∀ before r after, s.notices.records = before ++ r :: after → r.kind = kind → r.subject = subject →
          (∀ x ∈ before, ¬(x.kind = kind ∧ x.subject = subject)) →
          post kind subject detail s =
            { s with notices :=
              { s.notices with
                records := before ++
                  { r with count := (if r.count = 255 then 255 else r.count + 1), detail := detail, state := .waiting } :: after } })
        ∧ ((∀ x ∈ s.notices.records, ¬(x.kind = kind ∧ x.subject = subject)) → s.notices.counter ≠ 0 →
          s.notices.records.length ≤ 9 →
          (s.notices.ordinary < 8 →
            ∃ number : Byte, TakesNumber s.notices.records s.notices.counter number
              ∧ post kind subject detail s =
                { s with notices :=
                  { s.notices with
                    records := s.notices.records ++
                      [{ number := number, kind := kind, subject := subject, count := 1, detail := detail, state := .waiting }]
                    counter := nextNumber number } })
          ∧ (8 ≤ s.notices.ordinary → (∀ x ∈ s.notices.records, x.kind ≠ .noticesLost) →
            ∃ number : Byte, TakesNumber s.notices.records s.notices.counter number
              ∧ post kind subject detail s =
                { s with
                  notices :=
                    { s.notices with
                      records := s.notices.records ++
                        [{ number := number, kind := .noticesLost, subject := 0, count := 1, detail := byteOf kind.code, state := .waiting }]
                      counter := nextNumber number }
                  bank :=
                    { s.bank with
                      management := { s.bank.management with noticesLost := s.bank.management.noticesLost + 1 } } })
          ∧ (8 ≤ s.notices.ordinary → ∀ before r after, s.notices.records = before ++ r :: after → r.kind = .noticesLost →
            (∀ x ∈ before, x.kind ≠ .noticesLost) →
            post kind subject detail s =
              { s with
                notices :=
                  { s.notices with
                    records := before ++
                      { r with count := (if r.count = 255 then 255 else r.count + 1), detail := byteOf kind.code, state := .waiting }
                        :: after }
                bank :=
                  { s.bank with
                    management := { s.bank.management with noticesLost := s.bank.management.noticesLost + 1 } } })))

/-! ## Arrivals -/

/-- A well-formed FIRST or SOLE from Tn at an enabled port latches its trunk tag and limit from the running plan and is offered to Un on that
tag. In IDLE and DISCARDING it is judged as the part stands; in OPEN the open message is cut first, as FIRST while open, and the cell judged
over what the cut leaves, its buffers free again. Admitted, a FIRST opens the ingress record at one cell and index 1, and refused, which is
counted and notified, it leaves it DISCARDING; a SOLE leaves it IDLE (R17, R39 to R42, R46). That nothing else reaches the store between the cut
and the offer is the model's choice (notes/assumptions/20.md), and so is that the tag is latched whatever another tributary has in flight on it
(notes/assumptions/19.md). -/
def Obligations.FirstOrSoleOfUplinkIsJudged : Prop :=
  ∀ (n : Trib) (bytes : List Byte) (turn : Turn) (s : State) (c : Cell) (tag : Tag) (limit : Nat), Tests (.tributary n) .locked bytes 36 s →
    headerValid bytes = true → decodeCell bytes = c → (c.position = .first ∨ c.position = .sole) → c.wellFormedTributary = true →
    s.ports.table[n].enable = true → tag = s.plans.running.entries[n].tagBase + c.tag → limit = s.plans.running.entries[n].limit →
    ∃ t, exec (.lockedHeaderTest (.tributary n) bytes [] turn) s = .next t
      ∧ t.links = headerPassed (.tributary n) s
      ∧ (s.ports.ingress[n] = .idle ∨ s.ports.ingress[n] = .discarding → StartsUplink n c tag limit s t)
      ∧ (∀ oldTag channel oldLimit admitted next, s.ports.ingress[n] = .opened oldTag channel oldLimit admitted next →
        ∃ u, CutOnArrival n 4 s u ∧ u.ports = s.ports ∧ StartsUplink n c tag limit u t)
      ∧ t.plans = s.plans ∧ t.channels = s.channels ∧ t.engine = s.engine ∧ t.survey = s.survey ∧ t.pins = s.pins

/-- Every other cell from Tn. At a DISABLED port any cell is dropped and counted so (R39). At an enabled one a malformed cell is counted, cuts
an open message as malformed into DISCARDING, and changes nothing else (R47); a MIDDLE or LAST in IDLE is dropped and counted malformed (R41);
one in DISCARDING is dropped, a LAST ending it (R46). Of an OPEN message a MIDDLE or LAST is judged by continuity, length limit and admission:
of the wrong channel or index it cuts the message as an index gap, beyond the latched limit as over-length, and refused by the store, which
counts and notifies that first, for want of a buffer, each with the cell dropped, MESSAGE_CUT posted with its cause and the ingress record IDLE
after a LAST and DISCARDING after a MIDDLE; admitted, it joins Un on the latched tag, and the record goes on by one cell or, after a LAST,
becomes IDLE (R27, R43 to R45). That nothing else reaches the store between a refusal and its cut is the model's choice
(notes/assumptions/20.md). -/
def Obligations.OtherTributaryCellsAreJudged : Prop :=
  ∀ (n : Trib) (bytes : List Byte) (turn : Turn) (s : State) (c : Cell), Tests (.tributary n) .locked bytes 36 s →
    headerValid bytes = true → decodeCell bytes = c → c.tag ≠ 1023 →
    (s.ports.table[n].enable = false ∨ c.wellFormedTributary = false ∨ c.position = .middle ∨ c.position = .last) →
    ∃ t, exec (.lockedHeaderTest (.tributary n) bytes [] turn) s = .next t
      ∧ t.links = headerPassed (.tributary n) s
      ∧ (s.ports.table[n].enable = false →
        SameTraffic
            { s with
              bank :=
                { s.bank with up := s.bank.up.set n { s.bank.up[n] with whileDisabled := s.bank.up[n].whileDisabled + 1 } } } t
          ∧ t.ports = s.ports ∧ t.scheduler = s.scheduler)
      ∧ (s.ports.table[n].enable = true → c.wellFormedTributary = false →
        (s.ports.ingress[n] = .idle ∨ s.ports.ingress[n] = .discarding →
          SameTraffic (malformedCounted n s) t ∧ t.ports = s.ports ∧ t.scheduler = s.scheduler)
        ∧ (∀ tag channel limit admitted next, s.ports.ingress[n] = .opened tag channel limit admitted next →
          CutOnArrival n 3 (malformedCounted n s) t
            ∧ t.ports = { s.ports with ingress := s.ports.ingress.set n .discarding }))
      ∧ (s.ports.table[n].enable = true → c.wellFormedTributary = true →
        (s.ports.ingress[n] = .idle → SameTraffic (malformedCounted n s) t ∧ t.ports = s.ports ∧ t.scheduler = s.scheduler)
        ∧ (s.ports.ingress[n] = .discarding →
          SameTraffic s t ∧ t.scheduler = s.scheduler
            ∧ t.ports =
              { s.ports with ingress := s.ports.ingress.set n (if c.position = .last then .idle else .discarding) })
        ∧ ∀ tag channel limit admitted next, s.ports.ingress[n] = .opened tag channel limit admitted next →
          (c.tag.setWidth 6 ≠ channel ∨ c.index ≠ next → CutAtCell n c 2 s t)
          ∧ (c.tag.setWidth 6 = channel → c.index = next →
            (limit < admitted + 1 → CutAtCell n c 1 s t)
            ∧ (admitted + 1 ≤ limit →
              (RoomUp n s →
                SameTraffic (joinedUp n { c with tag := tag } s) t
                  ∧ t.ports =
                    { s.ports with
                      ingress := s.ports.ingress.set n
                        (if c.position = .last then .idle else .opened tag channel limit (admitted + 1) (c.index + 1)) }
                  ∧ t.scheduler = s.scheduler)
              ∧ ∀ full : Bool, RefusesUp n full s → CutAtCell n c 5 (refusedUp n full s) t)))
      ∧ t.plans = s.plans ∧ t.channels = s.channels ∧ t.engine = s.engine ∧ t.survey = s.survey ∧ t.pins = s.pins

/-- A FIRST or SOLE ends what its entry has in progress: of an OPEN entry the message is given up, a continuation error and a message discarded
counted, and no conversion written; of a DISCARDING one nothing more is counted (R113). It is then judged from IDLE in three steps: inactive, it
is dropped and counted, a FIRST into DISCARDING without latched items; its port not UP, or refused by the store, which counts and notifies that,
it is dropped, a FIRST into DISCARDING with the destination latched and nothing delivered, counted as a message discarded; and with room it
enters Dn on its local channel, a FIRST opening the entry. A SOLE leaves the entry IDLE in every case (R112). -/
def Obligations.FirstOrSoleOfDownlinkIsJudged : Prop :=
  ∀ (bytes : List Byte) (turn : Turn) (between : List StoreEvent) (s u : State) (c : Cell) (e : ChannelEntry),
    Tests .trunk .locked bytes 36 s → headerValid bytes = true → decodeCell bytes = c → c.tag.toNat < 1008 → c.fieldsOk = true →
    (c.position = .first ∨ c.position = .sole) → s.channels.wf = true → s.channels.get c.tag.toNat = e →
    u = givenUpBefore e.current s →
    ∃ t, exec (.lockedHeaderTest .trunk bytes between turn) s = .next t
      ∧ t.links = headerPassed .trunk s
      ∧ t.ports = s.ports ∧ t.plans = s.plans ∧ t.scheduler = s.scheduler ∧ t.engine = s.engine ∧ t.survey = s.survey
      ∧ t.pins = s.pins ∧ (∀ tag : Nat, tag ≠ c.tag.toNat → t.channels.get tag = s.channels.get tag)
      ∧ (c.position = .sole → t.channels.get c.tag.toNat = { e with current := .idle })
      ∧ (e.mask.includes s.plans.run = false →
          (c.position = .first → t.channels.get c.tag.toNat = { e with current := .discardingInactive })
            ∧ SameTraffic
              { u with bank := { u.bank with trunk := { u.bank.trunk with inactive := u.bank.trunk.inactive + 1 } } } t)
      ∧ (e.mask.includes s.plans.run = true → s.ports.state e.trib ≠ .up →
          (c.position = .first →
            t.channels.get c.tag.toNat = { e with current := .discarding e.trib e.channel 1 false }
              ∧ SameTraffic (discarded e.trib (droppedNotUp e.trib u)) t)
          ∧ (c.position = .sole → SameTraffic (droppedNotUp e.trib u) t))
      ∧ (e.mask.includes s.plans.run = true → s.ports.state e.trib = .up → RoomDown e.trib s →
          (c.position = .first → t.channels.get c.tag.toNat = { e with current := .opened e.trib e.channel 1 })
            ∧ SameTraffic (joinedDown e.trib { c with tag := e.channel.setWidth 10 } u) t)
      ∧ ∀ full : Bool, e.mask.includes s.plans.run = true → s.ports.state e.trib = .up → RefusesDown e.trib full s →
          (c.position = .first →
            t.channels.get c.tag.toNat = { e with current := .discarding e.trib e.channel 1 false }
              ∧ SameTraffic (discarded e.trib (refusedDown e.trib full u)) t)
          ∧ (c.position = .sole → SameTraffic (refusedDown e.trib full u) t)

/-- Every other data cell from the trunk. On tags 1008 to 1021 it is dropped and counted unassignable (R107). Malformed on an assignable tag it
is dropped and counted, and gives up an OPEN entry's message, counted discarded (R108). A MIDDLE or LAST on an IDLE entry is a continuation
error (R114). One on an OPEN entry is judged by continuity and admission: with another index it is dropped and counted as a continuation
error, and refused by the store it is dropped, counted and notified; in both the message is counted discarded, the entry goes into DISCARDING
with its index frozen, and a LAST ends it there at once. Admitted, it enters Dn on the latched channel, and the entry stays OPEN at the next
index or, after a LAST, is IDLE (R115, R116). A MIDDLE in DISCARDING changes nothing (R118). A LAST in DISCARDING ends the given-up message: with
the delivered flag set a LAST+X conversion with the frozen index is offered to Dn of an UP port, admitted or refused as any cell, and dropped
and counted if the port is not UP; with the flag clear, as for an inactive message, nothing is sent or counted; and the entry is IDLE (R117).
What the store takes between a refused LAST and its conversion is an operand of the model's, here none (notes/assumptions/8.md). -/
def Obligations.OtherTrunkDataCellsAreJudged : Prop :=
  ∀ (bytes : List Byte) (turn : Turn) (between : List StoreEvent) (s : State) (c : Cell) (e : ChannelEntry),
    Tests .trunk .locked bytes 36 s → headerValid bytes = true → decodeCell bytes = c → s.channels.wf = true →
    s.channels.get c.tag.toNat = e →
    (1008 ≤ c.tag.toNat → c.tag.toNat ≤ 1021 →
      exec (.lockedHeaderTest .trunk bytes between turn) s =
        .next
          { s with
            links := headerPassed .trunk s
            bank := { s.bank with trunk := { s.bank.trunk with unassignable := s.bank.trunk.unassignable + 1 } } })
    ∧ (c.tag.toNat < 1008 → c.fieldsOk = false →
      ∃ t, exec (.lockedHeaderTest .trunk bytes between turn) s = .next t
        ∧ EntryMoves c (match e.current with | .opened n channel next => .discarding n channel next true | other => other) s t
        ∧ SameTraffic
          { s with
            bank :=
              { s.bank with
                trunk := { s.bank.trunk with malformed := s.bank.trunk.malformed + 1 }
                down :=
                  match e.current with
                  | .opened n _ _ => s.bank.down.set n { s.bank.down[n] with discarded := s.bank.down[n].discarded + 1 }
                  | _ => s.bank.down } } t)
    ∧ (c.tag.toNat < 1008 → c.fieldsOk = true → (c.position = .middle ∨ c.position = .last) →
      (e.current = .idle →
        exec (.lockedHeaderTest .trunk bytes between turn) s =
          .next { continuationError s with links := headerPassed .trunk s })
      ∧ (c.position = .middle → (e.current = .discardingInactive ∨ ∃ n channel next d, e.current = .discarding n channel next d) →
        exec (.lockedHeaderTest .trunk bytes between turn) s = .next { s with links := headerPassed .trunk s })
      ∧ (c.position = .last → e.current = .discardingInactive →
        ∃ t, exec (.lockedHeaderTest .trunk bytes between turn) s = .next t ∧ EntryMoves c .idle s t ∧ SameTraffic s t)
      ∧ (∀ n channel next, c.position = .last → ∀ delivered : Bool, e.current = .discarding n channel next delivered →
        ∃ t, exec (.lockedHeaderTest .trunk bytes between turn) s = .next t ∧ EntryMoves c .idle s t
          ∧ (delivered = false → SameTraffic s t) ∧ (delivered = true → Converted n channel next s t))
      ∧ ∀ n channel next, e.current = .opened n channel next →
        (c.index ≠ next →
          ∃ t, exec (.lockedHeaderTest .trunk bytes between turn) s = .next t
            ∧ (c.position = .middle →
              EntryMoves c (.discarding n channel next true) s t ∧ SameTraffic (discarded n (continuationError s)) t)
            ∧ (c.position = .last → EntryMoves c .idle s t ∧ Converted n channel next (discarded n (continuationError s)) t))
        ∧ (c.index = next → RoomDown n s →
          ∃ t, exec (.lockedHeaderTest .trunk bytes between turn) s = .next t
            ∧ EntryMoves c (if c.position = .last then .idle else .opened n channel (c.index + 1)) s t
            ∧ SameTraffic (joinedDown n { c with tag := channel.setWidth 10 } s) t)
        ∧ ∀ full : Bool, c.index = next → RefusesDown n full s → (c.position = .last → between = []) →
          ∃ t, exec (.lockedHeaderTest .trunk bytes between turn) s = .next t
            ∧ (c.position = .middle →
              EntryMoves c (.discarding n channel next true) s t ∧ SameTraffic (discarded n (refusedDown n full s)) t)
            ∧ (c.position = .last →
              EntryMoves c .idle s t ∧ Converted n channel next (discarded n (refusedDown n full s)) t))

/-- A well-formed command that repeats no last taken number joins the tail of a command queue of fewer than 4 and becomes the last taken,
QUEUED; into a full queue it is an overrun, counted and posted with its number; its kind, number and operands are the payload bytes 0, 1
and 2 to fill - 1 (R127, R130). -/
def Obligations.CommandIsTakenOrOverruns : Prop :=
  ∀ (bytes : List Byte) (turn : Turn) (between : List StoreEvent) (s : State) (c : Cell), Tests .trunk .locked bytes 36 s →
    headerValid bytes = true → decodeCell bytes = c → c.tag = 1022 → c.position = .sole → c.abandon = false → 2 ≤ c.fill.toNat →
    c.fill.toNat ≤ 32 →
    (byteAt bytes 5 = 0 ∨ ∀ st, s.engine.lastTaken ≠ some (byteAt bytes 5, st)) →
    ∃ t, exec (.lockedHeaderTest .trunk bytes between turn) s = .next t
      ∧ t.store = s.store ∧ t.ports = s.ports ∧ t.plans = s.plans ∧ t.scheduler = s.scheduler ∧ t.channels = s.channels
      ∧ t.survey = s.survey ∧ t.pins = s.pins
      ∧ (s.engine.commands.length < 4 →
          t.engine =
              { s.engine with
                commands := s.engine.commands ++
                  [{ kind := byteAt bytes 4, seq := byteAt bytes 5, operands := (bytes.drop 6).take (c.fill.toNat - 2), fill := c.fill }]
                lastTaken := some (byteAt bytes 5, .queued) }
            ∧ t.notices = s.notices
            ∧ t.bank =
              { s.bank with
                management := { s.bank.management with commandsTaken := s.bank.management.commandsTaken + 1 } })
      ∧ (4 ≤ s.engine.commands.length →
          t.engine = s.engine ∧ t.notices = (post .commandOverrun 0 (byteAt bytes 5) s).notices
            ∧ t.bank.management.overruns = s.bank.management.overruns + 1
            ∧ t.bank.management.commandsTaken = s.bank.management.commandsTaken
            ∧ t.bank.up = s.bank.up ∧ t.bank.down = s.bank.down ∧ t.bank.trunk = s.bank.trunk)

/-- A duplicate is never taken: while its command is queued or executing it is dropped and counted; once completed, a flagged copy of the
stored response is placed last if an entry is free, and the duplicate is dropped and counted if none is; and what is no well-formed
command on tag 1022 is only counted (R127 to R129). -/
def Obligations.DuplicateIsRepeatedOrDropped : Prop :=
  ∀ (bytes : List Byte) (turn : Turn) (between : List StoreEvent) (s : State) (c : Cell), Tests .trunk .locked bytes 36 s →
    headerValid bytes = true → decodeCell bytes = c → c.tag = 1022 →
    (¬(c.position = .sole ∧ c.abandon = false ∧ 2 ≤ c.fill.toNat ∧ c.fill.toNat ≤ 32)
      ∨ (byteAt bytes 5 ≠ 0 ∧ ∃ st, s.engine.lastTaken = some (byteAt bytes 5, st))) →
    ∃ t, exec (.lockedHeaderTest .trunk bytes between turn) s = .next t
      ∧ t = { s with links := t.links, engine := t.engine, bank := t.bank }
      ∧ (¬(c.position = .sole ∧ c.abandon = false ∧ 2 ≤ c.fill.toNat ∧ c.fill.toNat ≤ 32) →
          t.engine = s.engine
            ∧ t.bank =
              { s.bank with trunk := { s.bank.trunk with managementMalformed := s.bank.trunk.managementMalformed + 1 } })
      ∧ (c.position = .sole → c.abandon = false → 2 ≤ c.fill.toNat → c.fill.toNat ≤ 32 → byteAt bytes 5 ≠ 0 →
          (∀ st, s.engine.lastTaken = some (byteAt bytes 5, st) → st ≠ .completed →
            t.engine = s.engine
              ∧ t.bank =
                { s.bank with
                  management := { s.bank.management with duplicatesDropped := s.bank.management.duplicatesDropped + 1 } })
          ∧ ∀ r : Response, s.engine.lastTaken = some (byteAt bytes 5, .completed) → s.engine.stored = some r →
            r.seq = byteAt bytes 5 →
            (s.engine.entriesUsed < 8 →
              t.engine = { s.engine with placed := s.engine.placed ++ [{ r with repeated := true }] } ∧ t.bank = s.bank)
            ∧ (8 ≤ s.engine.entriesUsed →
              t.engine = s.engine
                ∧ t.bank =
                  { s.bank with
                    management := { s.bank.management with duplicatesDropped := s.bank.management.duplicatesDropped + 1 } }))

/-! ## Slots and cell times -/

/-- A slot owned by Tn with no abandon entry for Tn sends the head cell of Un, whether or not its message is complete; the bookkeeping
follows the cell, and a LAST or SOLE takes Tn off the borrow stack from wherever it stands (R23, R25, R26, R84, R97). That a boundary is held in
parts, of which none is due, is the model's choice (notes/assumptions/6.md), and so is the tag kept by a MIDDLE taken with no head message
started, which no run reaches (notes/assumptions/15.md). -/
def Obligations.OwnSlotSendsHeadCell : Prop :=
  ∀ (n : Trib) (c : Cell) (rest : List Cell) (s : State), SlotComes (.trib n) s → (∀ e ∈ s.scheduler.abandon, e.trib ≠ n) →
    s.store.up[n].cells = c :: rest →
    ∃ t, exec .slot s = .next t ∧ SlotCarries c (.own n) s t ∧ TakenForTrunk n c rest s t
      ∧ t.scheduler.abandon = s.scheduler.abandon
      ∧ t.scheduler.borrow =
        (if c.position = .last ∨ c.position = .sole then s.scheduler.borrow.filter fun m => m != n else s.scheduler.borrow)
      ∧ t.engine = s.engine ∧ t.notices = s.notices ∧ t.bank = s.bank

/-- An own slot sends its tributary's abandon entry first, from wherever it stands on the list, and a spare slot of any kind the oldest entry:
LAST, X 1, fill 0, on the entry's tag and index; the entry leaves and *abandon cells sent* rises; no queue changes (R84 to R86, R88). That a
boundary is held in parts, of which none is due, is the model's choice (notes/assumptions/6.md). -/
def Obligations.AbandonCellIsSentFirst : Prop :=
  ∀ (before after : List AbandonEntry) (e : AbandonEntry) (s : State), s.scheduler.abandon = before ++ e :: after →
    ((SlotComes (.trib e.trib) s ∧ ∀ x ∈ before, x.trib ≠ e.trib) ∨ (SpareSlot s ∧ before = [])) →
    ∃ t, exec .slot s = .next t
      ∧ SlotCarries { tag := e.tag, position := .last, abandon := true, fill := 0, index := e.next, payload := [] } .abandon s t
      ∧ t.scheduler.abandon = before ++ after ∧ t.scheduler.borrow = s.scheduler.borrow
      ∧ t.bank =
        { s.bank with
          up := s.bank.up.set e.trib { s.bank.up[e.trib] with abandonSent := s.bank.up[e.trib].abandonSent + 1 } }
      ∧ t.store = s.store ∧ t.engine = s.engine ∧ t.notices = s.notices

/-- A MANAGEMENT slot sends the oldest placed response, and with none placed the oldest eligible notice, which stays in its place as SENT with
its timer at 0; each is counted, and a repeat twice; and each goes out as a SOLE on tag 1022 with the bytes of its payload
(R85, R89, R153, R154, R179, R180). That a boundary is held in parts, of which none is due, is the
model's choice (notes/assumptions/6.md). -/
def Obligations.ManagementSlotSendsResponseThenNotice : Prop :=
  ∀ s : State, SlotComes .management s →
    (∀ (r : Response) (rest : List Response), s.engine.placed = r :: rest →
      ∃ t, exec .slot s = .next t ∧ SlotCarries (responseCell r) .management s t
        ∧ t.engine = { s.engine with placed := rest }
        ∧ t.bank =
          { s.bank with
            management :=
              { s.bank.management with
                responsesSent := s.bank.management.responsesSent + 1
                repeatsSent := s.bank.management.repeatsSent + (if r.repeated then 1 else 0) } }
        ∧ t.store = s.store ∧ t.notices = s.notices ∧ t.scheduler.abandon = s.scheduler.abandon
        ∧ t.scheduler.borrow = s.scheduler.borrow)
    ∧ ∀ (before after : List NoticeRecord) (r : NoticeRecord), s.engine.placed = [] →
      s.notices.records = before ++ r :: after →
      (∀ x ∈ before, ∃ timer, x.state = .sent timer ∧ timer.toNat < s.notices.interval.toNat) →
      (r.state = .waiting ∨ ∃ timer, r.state = .sent timer ∧ s.notices.interval.toNat ≤ timer.toNat) →
      ∃ t, exec .slot s = .next t ∧ SlotCarries (noticeCell r) .management s t
        ∧ t.notices = { s.notices with records := before ++ { r with state := .sent 0 } :: after }
        ∧ t.bank =
          { s.bank with
            management := { s.bank.management with noticesSent := s.bank.management.noticesSent + 1 } }
        ∧ t.store = s.store ∧ t.engine = s.engine ∧ t.scheduler.abandon = s.scheduler.abandon
        ∧ t.scheduler.borrow = s.scheduler.borrow

/-- The borrowing decision pushes the best candidate onto an empty stack, and above a top only the best candidate that qualifies by express or
overtake; otherwise the stack stays as it is (R93 to R95). -/
def Obligations.BorrowingDecisionPushesBest : Prop :=
  ∀ s : State,
    (s.scheduler.borrow = [] → (∀ c, ¬Candidate s c) → borrowDecision s = [])
      ∧ (s.scheduler.borrow = [] → ∀ c, Candidate s c →
        (∀ d, Candidate s d → order s.plans.running c ≤ order s.plans.running d) → borrowDecision s = [c])
      ∧ ∀ h below, s.scheduler.borrow = h :: below →
        ((∀ c, Candidate s c → ¬Qualifies s.plans.running h c) → borrowDecision s = h :: below)
        ∧ ∀ c, Candidate s c → Qualifies s.plans.running h c →
          (∀ d, Candidate s d → Qualifies s.plans.running h d → order s.plans.running c ≤ order s.plans.running d) →
          borrowDecision s = c :: h :: below

/-- A spare slot, whether OPEN, of a tributary with nothing to send or MANAGEMENT with nothing to send, with no abandon entry waiting sends the
head cell of the tributary the borrowing decision leaves on top, which is popped at its LAST or SOLE; with no one on top it carries the idle
cell, and still counts as a slot (R84 to R86, R96). That a boundary is held in parts, of which none is due, is the model's choice
(notes/assumptions/6.md), and so is the tag kept by a MIDDLE taken with no head message started, which no run reaches
(notes/assumptions/15.md). -/
def Obligations.SpareSlotServesTopHolder : Prop :=
  ∀ s : State, SpareSlot s → s.scheduler.abandon = [] →
    (∀ (n : Trib) (below : List Trib) (c : Cell) (rest : List Cell), borrowDecision s = n :: below →
      s.store.up[n].cells = c :: rest →
      ∃ t, exec .slot s = .next t ∧ SlotCarries c (.borrowed n) s t ∧ TakenForTrunk n c rest s t
        ∧ t.scheduler.abandon = []
        ∧ t.scheduler.borrow =
          (if c.position = .last ∨ c.position = .sole then (n :: below).filter fun m => m != n else n :: below)
        ∧ t.engine = s.engine ∧ t.notices = s.notices ∧ t.bank = s.bank)
    ∧ (borrowDecision s = [] →
      ∃ t, exec .slot s = .next t
        ∧ SlotCarries { tag := 1023, position := .sole, abandon := false, fill := 0, index := 0, payload := [] } .idle s t
        ∧ t.store = s.store ∧ t.scheduler.abandon = [] ∧ t.scheduler.borrow = [] ∧ t.engine = s.engine
        ∧ t.notices = s.notices ∧ t.bank = s.bank)

/-- At a tributary cell time an UP port with cells queued sends the head of Dn, whose buffer returns and which is counted; any other port, or
an empty Dn, sends the idle cell and changes nothing else (R24, R48). -/
def Obligations.CellTimeServesDownlink : Prop :=
  ∀ (n : Trib) (s : State), s.pins.hardReset = none →
    (∀ (c : Cell) (rest : List Cell), s.ports.state n = .up → s.store.down[n] = c :: rest →
      exec (.tributaryCellTime n) s =
        .next
          { s with
            links := { s.links with tribTx := s.links.tribTx.set n (.sending c) }
            store := { s.store with free := s.store.free + 1, down := s.store.down.set n rest }
            bank :=
              { s.bank with
                down := s.bank.down.set n { s.bank.down[n] with sentToTributary := s.bank.down[n].sentToTributary + 1 } } })
    ∧ (s.ports.state n ≠ .up ∨ s.store.down[n] = [] →
      exec (.tributaryCellTime n) s =
        .next
          { s with
            links :=
              { s.links with
                tribTx := s.links.tribTx.set n
                  (.sending { tag := 1023, position := .sole, abandon := false, fill := 0, index := 0, payload := [] }) } })

/-! ## Boundaries -/

/-- The boundary that ends PENDING installs the target: run selector, switch state with the old plan as fallback in TRIAL, PLAN_SWITCHED
posted beside any SURVEY_DONE in either order, the survey told before or after it takes the boundary, and SWITCH PLAN answered OK with plan and
mode, its number standing COMPLETED if it is the last taken, which the model reads as no command waiting behind it (R134;
notes/assumptions/9.md); queues, borrow stack and abandon list stand (R73, R78, R147, R173). That a boundary is held in parts and its open
orders are operands is the model's choice (notes/assumptions/6.md). -/
def Obligations.BoundarySwitchesPlan : Prop :=
  ∀ (order : BoundaryOrder) (target : PlanId) (mode : SwitchMode) (c : TakenCommand) (s : State), BoundaryComes s →
    order.survey ≠ .alone → s.plans.switch = .pending target mode → s.engine.inProgress = some c →
    ∃ t, exec (.cycleBoundary order) s = .next t
      ∧ t.plans =
        { s.plans with
          run := target
          switch := match mode with | .firm => .steady | .trial window => .trial window s.plans.run }
      ∧ BoundaryDelivered order s t
      ∧ Completed c s.engine.commands .ok
          [byteOf target.val, match mode with | .firm => 0 | .trial _ => 1] s.engine t.engine
      ∧ t.engine.lastTaken = standingAt .completed s.engine.commands s.engine
      ∧ SwitchPosted order (post .planSwitched (byteOf target.val) (match mode with | .firm => 0 | .trial _ => 1)) s t
      ∧ t.survey = surveyAtSwitch order.survey s.survey

/-- Each boundary of a trial lowers the remaining cycles by one, and the one that finds 1 left reverts to the fallback plan with PLAN_REVERTED
posted, beside any SURVEY_DONE in either order, and no response, the plans themselves unchanged, whether the plan store takes it with the
others or in a step of its own (R74, R75, R147, R173). That a boundary is held in parts, and that the revert is a step of its own with its own
due flag, is the model's choice (notes/assumptions/6.md). -/
def Obligations.TrialCountsDownAndReverts : Prop :=
  ∀ (remaining : BitVec 16) (fallback : PlanId) (s : State), BoundaryComes s → s.plans.switch = .trial remaining fallback →
    (∀ order : BoundaryOrder, order.survey ≠ .alone →
      ∃ t, exec (.cycleBoundary order) s = .next t ∧ BoundaryDelivered order s t ∧ t.engine = s.engine
        ∧ (2 ≤ remaining.toNat → t.plans = { s.plans with switch := .trial (remaining - 1) fallback })
        ∧ (remaining = 1 →
          t.plans = { s.plans with run := fallback, switch := .steady }
            ∧ SwitchPosted order (post .planReverted (byteOf fallback.val) (byteOf s.plans.run.val)) s t
            ∧ t.survey = surveyAtSwitch order.survey s.survey))
    ∧ (remaining = 1 →
      ∃ t, exec .planReverted s = .next t
        ∧ t.plans = { s.plans with run := fallback, switch := .steady }
        ∧ t.notices = (post .planReverted (byteOf fallback.val) (byteOf s.plans.run.val) s).notices
        ∧ t.bank = (post .planReverted (byteOf fallback.val) (byteOf s.plans.run.val) s).bank
        ∧ t.survey = planReported s.survey
        ∧ t.scheduler = { s.scheduler with position := 0, due := { s.scheduler.due with plan := false } }
        ∧ t.engine = s.engine ∧ t.store = s.store ∧ t.ports = s.ports ∧ t.channels = s.channels ∧ t.links = s.links
        ∧ t.pins = s.pins)

/-- A boundary raises the repeat timer of every SENT record by one, up to 255, and leaves WAITING records alone, whether the notice list takes
it with the others or, when it brings a timer to the interval, in a step of its own; a list that leaves it until after slot 0 stands (R155).
Such a list stands through slot 0, which is decided by the list as it is, and takes the boundary ahead of the next slot, a record sent in slot
0 included (R155; notes/assumptions/18.md). That a boundary is held in parts, with an order and a step of its own, is the model's choice
(notes/assumptions/6.md), and so is the cycle count (notes/assumptions/7.md). -/
def Obligations.BoundaryRaisesRepeatTimers : Prop :=
  (∀ s : State, BoundaryComes s →
    (∀ order : BoundaryOrder, order.survey ≠ .alone → s.plans.switch = .steady → s.survey.state = .idle →
      exec (.cycleBoundary order) s =
        .next
          { s with
            notices := timedUnless order.noticesLate s.notices
            scheduler :=
              { s.scheduler with
                position := 0
                cycle := s.scheduler.cycle + 1
                due := { scheduler := false, plan := false, notices := order.noticesLate, survey := order.survey == .late } } })
    ∧ ((∃ r ∈ s.notices.records, ∃ timer : Byte, r.state = .sent timer ∧ timer.toNat + 1 = s.notices.interval.toNat) →
      exec .noticeRepeatExpiry s =
        .next
          { s with
            notices := { s.notices with records := s.notices.records.map timed }
            scheduler := { s.scheduler with due := { s.scheduler.due with notices := false } } }))
    ∧ ∀ s : State, s.pins.hardReset = none → s.scheduler.due.scheduler = false → s.scheduler.due.notices = true →
      (s.scheduler.position = 0 → 1 < s.plans.running.length →
        ∃ t, exec .slot (withNoticesDue false s) = .next t ∧ exec .slot s = .next (withNoticesDue true t))
      ∧ (s.scheduler.position ≠ 0 →
        ∃ t, exec .slot { withNoticesDue false s with notices := { s.notices with records := s.notices.records.map timed } } = .next t
          ∧ exec .slot s = .next t)

/-- A boundary starts an ARMED survey, counts a cycle of a RUNNING one up to 65535, and ends it with SURVEY_DONE when its window is reached;
IDLE and DONE are left alone (R171). The survey takes it with the other blocks, or alone and on its own however many of them have taken it
(R82, R173), or, where it ends a window, by SURVEY_DONE, or else in slot 0, after that slot's decision and ahead of its report (R172). That
a boundary is held in parts, with orders and steps of its own, is the model's choice (notes/assumptions/6.md). -/
def Obligations.BoundaryDrivesSurvey : Prop :=
  (∀ (order : BoundaryOrder) (s : State), BoundaryComes s → order.survey ≠ .alone → s.plans.switch = .steady →
      ∃ t, exec (.cycleBoundary order) s = .next t ∧ BoundaryDelivered order s t ∧ t.plans = s.plans ∧ t.engine = s.engine
        ∧ t.survey = (if order.survey = .late then s.survey else boundaryTaken s.survey)
        ∧ (WindowEnds s.survey → order.survey ≠ .late →
          t.notices = timedUnless order.noticesLate (post .surveyDone 0 0 s).notices ∧ t.bank = (post .surveyDone 0 0 s).bank)
        ∧ (¬WindowEnds s.survey ∨ order.survey = .late →
          t.notices = timedUnless order.noticesLate s.notices ∧ t.bank = s.bank))
    ∧ (∀ (order : BoundaryOrder) (s : State), s.pins.hardReset = none → order.survey = .alone → s.scheduler.due.survey = true →
      ∃ t, exec (.cycleBoundary order) s = .next t ∧ SurveyTakesAlone s t
        ∧ (WindowEnds s.survey → t.notices = (post .surveyDone 0 0 s).notices ∧ t.bank = (post .surveyDone 0 0 s).bank)
        ∧ (¬WindowEnds s.survey → t.notices = s.notices ∧ t.bank = s.bank))
    ∧ (∀ s : State, s.pins.hardReset = none → s.scheduler.due.survey = true → WindowEnds s.survey →
      ∃ t, exec .surveyDone s = .next t ∧ SurveyTakesAlone s t
        ∧ t.survey = { s.survey with state := .done, cycles := saturate16 s.survey.cycles }
        ∧ t.notices = (post .surveyDone 0 0 s).notices ∧ t.bank = (post .surveyDone 0 0 s).bank)
    ∧ ∀ s : State, s.pins.hardReset = none → s.scheduler.due.scheduler = false → s.scheduler.due.survey = true →
      ∃ t,
        exec .slot
            { s with
              survey := boundaryTaken s.survey
              scheduler := { s.scheduler with due := { s.scheduler.due with survey := false } } } = .next t
          ∧ (WindowEnds s.survey → exec .slot s = .next (post .surveyDone 0 0 t))
          ∧ (¬WindowEnds s.survey → exec .slot s = .next t)

/-! ## Executing commands -/

/-- The general checks: nothing is executed while a command is in progress, the response queue is full or no command waits; a kind of no
command is answered UNKNOWN_KIND, and too few operand bytes LENGTH, with nothing changed (R133, R138; that a step whose command does not head
the queue does nothing is the model's choice: notes/assumptions/2.md). A command that completes at once leaves the last taken number COMPLETED
when no command waits behind it, the model's reading of 'if it was the last taken' (notes/assumptions/9.md), and as it was otherwise (R134). -/
def Obligations.GeneralChecksOfExecution : Prop :=
  (∀ (i : Instr) (s : State), (kindOf i ≠ none ∨ i = .unknownKind) →
      (s.engine.inProgress ≠ none ∨ 8 ≤ s.engine.entriesUsed ∨ s.engine.commands = []) → exec i s = .next s)
    ∧ (∀ (c : TakenCommand) (rest : List TakenCommand) (s : State), s.pins.hardReset = none → s.engine.inProgress = none →
      s.engine.entriesUsed < 8 → s.engine.commands = c :: rest → (∀ k, c.kind ≠ kindCode k) →
      Answers .unknownKind c rest .unknownKind [] s s)
    ∧ (∀ (i : Instr) (k : CommandKind) (c : TakenCommand) (rest : List TakenCommand) (s : State), kindOf i = some k →
      s.pins.hardReset = none → s.engine.inProgress = none → s.engine.entriesUsed < 8 → s.engine.commands = c :: rest →
      c.kind = kindCode k → c.operands.length < operandsNeeded k c.operands → Answers i c rest .length [] s s)
    ∧ ∀ (i : Instr) (k : CommandKind) (c : TakenCommand) (rest : List TakenCommand) (s t : State), kindOf i = some k →
      k ≠ .restart → Ready k c rest s → exec i s = .next t → t.engine.inProgress = none →
      t.engine.lastTaken = standingAt .completed rest s.engine

/-- ECHO returns its operand bytes in order, up to the first 28; IDENTIFY returns vendor 0x4E, part 0x0818, revision 2, 512 buffers, 8
tributaries and 2 plans; and each changes nothing (R140, R141). -/
def Obligations.EchoAndIdentifyAnswer : Prop :=
  ∀ (c : TakenCommand) (rest : List TakenCommand) (s : State),
    (Ready .echo c rest s → Answers .echo c rest .ok (c.operands.take 28) s s)
    ∧ (Ready .identify c rest s → Answers .identify c rest .ok ([0x4E, 0x08, 0x18, 2] ++ bytes16 512 ++ [8, 2]) s s)

/-- READ STATUS returns its twenty-six bytes as they stand, its own reservation counted and itself no longer in the command queue, and changes
nothing (R104, R142). -/
def Obligations.ReadStatusReportsThePart : Prop :=
  ∀ (c : TakenCommand) (rest : List TakenCommand) (s : State), Ready .readStatus c rest s →
    ∃ data, Answers .readStatus c rest .ok data s s ∧ data.length = 26
      ∧ byteAt data 0 = byteOf s.plans.run.val ∧ byteAt data 1 = byteOf s.plans.edit.val ∧ byteAt data 2 = switchCode s.plans
      ∧ (∀ r f, s.plans.switch = .trial r f → wordAt data 3 = r.toNat)
      ∧ ((∀ r f, s.plans.switch ≠ .trial r f) → wordAt data 3 = 0)
      ∧ byteAt data 5 =
        (match s.links.trunkRx.delineation with | .seek => 0 | .confirm => 1 | .locked => 2)
      ∧ (∀ n : Trib, (byteAt data (6 + n.val / 4)).extractLsb' (2 * (n.val % 4)) 2 =
          (match s.ports.state n with | .disabled => 0#2 | .down => 1#2 | .up => 2#2))
      ∧ (s.store.free < 65536 → wordAt data 8 = s.store.free) ∧ (s.reserve < 65536 → wordAt data 10 = s.reserve)
      ∧ (∀ k : Nat, k < 8 → byteAt data (12 + k) = (s.scheduler.borrow[k]?.map fun n => byteOf n.val).getD 0xFF)
      ∧ byteAt data 20 = byteOf s.scheduler.abandon.length
      ∧ byteAt data 21 = (match s.survey.state with | .idle => 0 | .armed => 1 | .running => 2 | .done => 3)
      ∧ byteAt data 22 = byteOf s.notices.ordinary ∧ byteAt data 23 = flagByte s.notices.hasLostMarker
      ∧ byteAt data 24 = byteOf rest.length ∧ byteAt data 25 = byteOf (s.engine.placed.length + 1)

/-- RESTART empties the queues, the ingress records, the borrow stack, the abandon list, the current parts of the channel map and both
management queues, ends a trial in favour of the running plan, leaves one RESTARTED record with detail 3 that takes the number counter's value,
which moves on by one, and the survey IDLE, answers with how many commands and responses it discarded, and keeps everything else
(R33, R55, R79, R106, R125, R143, R144, R149, R161, R176). -/
def Obligations.RestartKeepsConfiguration : Prop :=
  ∀ (c : TakenCommand) (rest : List TakenCommand) (s : State), Ready .restart c rest s → s.channels.wf = true →
    s.notices.counter ≠ 0 →
    ∃ t, exec .restart s = .next t
      ∧ Completed c [] .ok [byteOf rest.length, byteOf s.engine.placed.length] { s.engine with placed := [] } t.engine
      ∧ t.engine.lastTaken = some (c.seq, .completed)
      ∧ t.store.free = 512
      ∧ (∀ n : Trib, t.store.up[n] = { cells := [], complete := 0, head := none } ∧ t.store.down[n] = [])
      ∧ (∀ n : Trib, t.ports.ingress[n] = .idle) ∧ t.ports.table = s.ports.table ∧ t.ports.rxLocked = s.ports.rxLocked
      ∧ t.plans.plan = s.plans.plan ∧ t.plans.run = s.plans.run ∧ t.plans.edit = s.plans.edit
      ∧ (∀ r f, t.plans.switch ≠ .trial r f) ∧ ((∀ r f, s.plans.switch ≠ .trial r f) → t.plans.switch = s.plans.switch)
      ∧ t.scheduler = { s.scheduler with borrow := [], abandon := [] }
      ∧ (∀ tag : Nat, t.channels.get tag = { s.channels.get tag with current := .idle })
      ∧ t.notices.records =
        [{ number := s.notices.counter, kind := .restarted, subject := 0, count := 1, detail := 3, state := .waiting }]
      ∧ t.notices.mask = s.notices.mask ∧ t.notices.interval = s.notices.interval ∧ t.notices.counter = nextNumber s.notices.counter
      ∧ t.survey = Survey.reset ∧ t.bank = s.bank ∧ t.links = s.links ∧ t.pins = s.pins

/-- SELECT EDIT PLAN moves the edit selector to the plan named, in every switch state, and any other operand is answered RANGE; no plan, the
run selector or the switch state changes. -/
def Obligations.SelectEditPlanMovesEditSelector : Prop :=
  ∀ (c : TakenCommand) (rest : List TakenCommand) (s : State), Ready .selectEditPlan c rest s →
    (∀ p : PlanId, byteAt c.operands 0 = byteOf p.val →
      Answers .selectEditPlan c rest .ok [] s { s with plans := { s.plans with edit := p } })
    ∧ (1 < (byteAt c.operands 0).toNat → Answers .selectEditPlan c rest .range [] s s)

/-- WRITE SLOTS in range and on an editable plan writes exactly the owners given, from the start slot on, and nothing else (R63). -/
def Obligations.WriteSlotsWritesOwners : Prop :=
  ∀ (c : TakenCommand) (rest : List TakenCommand) (s : State) (owners : List Owner), Ready .writeSlots c rest s →
    PlanWriteInRange .writeSlots c.operands → Editable s →
    (c.operands.drop 2).take (byteAt c.operands 1).toNat = owners.map Owner.code →
    ∃ p : Plan, Answers .writeSlots c rest .ok [] s (editPlan p s)
      ∧ p = { s.plans.plan[s.plans.edit] with slots := p.slots }
      ∧ ∀ k : Nat, k < 256 →
        p.owner k =
          if (byteAt c.operands 0).toNat ≤ k ∧ k < (byteAt c.operands 0).toNat + owners.length then
            owners.getD (k - (byteAt c.operands 0).toNat) .openSlot
          else s.plans.plan[s.plans.edit].owner k

/-- SET CYCLE LENGTH, WRITE TRIBUTARY ENTRY, SET PLAN OPTIONS and COPY PLAN, in range and on an editable plan, change the parts of the edit
plan they name at once, with OK and no data, and nothing else (R61, R64 to R67). -/
def Obligations.PlanWritesChangeOnlyWhatTheyName : Prop :=
  ∀ (c : TakenCommand) (rest : List TakenCommand) (s : State), Editable s →
    (Ready .setCycleLength c rest s → PlanWriteInRange .setCycleLength c.operands →
      Answers .setCycleLength c rest .ok [] s (editPlan { s.plans.plan[s.plans.edit] with length := wordAt c.operands 0 } s))
    ∧ (∀ (n : Trib) (e : PlanEntry), Ready .writeTributaryEntry c rest s → PlanWriteInRange .writeTributaryEntry c.operands →
      byteAt c.operands 0 = byteOf n.val → byteAt c.operands 1 = byteOf e.rank.val → byteAt c.operands 2 = flagByte e.borrow →
      wordAt c.operands 3 = e.tagBase.toNat → (byteAt c.operands 5).toNat = e.limit →
      Answers .writeTributaryEntry c rest .ok [] s
        (editPlan { s.plans.plan[s.plans.edit] with entries := s.plans.plan[s.plans.edit].entries.set n e } s))
    ∧ (∀ (x : Option Trib) (o : Bool), Ready .setPlanOptions c rest s →
      byteAt c.operands 0 = (match x with | some n => byteOf n.val | none => 0xFF) → byteAt c.operands 1 = flagByte o →
      Answers .setPlanOptions c rest .ok [] s (editPlan { s.plans.plan[s.plans.edit] with express := x, overtake := o } s))
    ∧ (Ready .copyPlan c rest s → Answers .copyPlan c rest .ok [] s (editPlan s.plans.running s))

/-- A plan write out of range is answered RANGE in every switch state; one in range is answered IN_USE, with the run selector and the switch
state, when the edit plan runs or a trial runs; and neither changes anything (R61). -/
def Obligations.PlanWritesRefused : Prop :=
  ∀ (i : Instr) (k : CommandKind) (c : TakenCommand) (rest : List TakenCommand) (s : State), i ∈ planWrites → kindOf i = some k →
    Ready k c rest s →
    (¬PlanWriteInRange k c.operands → Answers i c rest .range [] s s)
      ∧ (PlanWriteInRange k c.operands → (s.plans.edit = s.plans.run ∨ ∃ r f, s.plans.switch = .trial r f) →
        Answers i c rest .inUse [byteOf s.plans.run.val, switchCode s.plans] s s)

/-- READ SLOTS, READ TRIBUTARY ENTRY and READ PLAN OPTIONS return what the named plan holds, the last with its verdict by the three
conditions in order, answer RANGE to operands out of range, and change nothing (R60, R68 to R70). -/
def Obligations.PlanReadsReportThePlan : Prop :=
  ∀ (c : TakenCommand) (rest : List TakenCommand) (s : State) (p : PlanId),
    (Ready .readSlots c rest s →
      (byteAt c.operands 0 = byteOf p.val → 1 ≤ (byteAt c.operands 2).toNat → (byteAt c.operands 2).toNat ≤ 24 →
        (byteAt c.operands 1).toNat + (byteAt c.operands 2).toNat ≤ 256 →
        ∃ data, Answers .readSlots c rest .ok data s s ∧ data.length = (byteAt c.operands 2).toNat
          ∧ ∀ k : Nat, k < (byteAt c.operands 2).toNat →
            byteAt data k = (s.plans.plan[p].owner ((byteAt c.operands 1).toNat + k)).code)
      ∧ (1 < (byteAt c.operands 0).toNat ∨ (byteAt c.operands 2).toNat = 0 ∨ 24 < (byteAt c.operands 2).toNat
          ∨ 256 < (byteAt c.operands 1).toNat + (byteAt c.operands 2).toNat → Answers .readSlots c rest .range [] s s))
    ∧ (Ready .readTributaryEntry c rest s →
      (∀ n : Trib, byteAt c.operands 0 = byteOf p.val → byteAt c.operands 1 = byteOf n.val →
        Answers .readTributaryEntry c rest .ok
          ([byteOf s.plans.plan[p].entries[n].rank.val, flagByte s.plans.plan[p].entries[n].borrow]
            ++ bytes16 s.plans.plan[p].entries[n].tagBase.toNat ++ [byteOf s.plans.plan[p].entries[n].limit]) s s)
      ∧ (1 < (byteAt c.operands 0).toNat ∨ 7 < (byteAt c.operands 1).toNat →
        Answers .readTributaryEntry c rest .range [] s s))
    ∧ (Ready .readPlanOptions c rest s →
      (byteAt c.operands 0 = byteOf p.val →
        ∃ verdict reason : Byte,
          Answers .readPlanOptions c rest .ok
            (bytes16 s.plans.plan[p].length
              ++ [match s.plans.plan[p].express with | some n => byteOf n.val | none => 0xFF, flagByte s.plans.plan[p].overtake,
                verdict, reason]) s s
          ∧ ((∀ k : Nat, k < s.plans.plan[p].length → k < 256 → s.plans.plan[p].owner k ≠ .management) → verdict = 1 ∧ reason = 1)
          ∧ ((∃ k : Nat, k < s.plans.plan[p].length ∧ k < 256 ∧ s.plans.plan[p].owner k = .management) →
            ((∃ i j : Trib, i < j ∧ s.plans.plan[p].entries[i].tagBase.toNat < s.plans.plan[p].entries[j].tagBase.toNat + 64
                ∧ s.plans.plan[p].entries[j].tagBase.toNat < s.plans.plan[p].entries[i].tagBase.toNat + 64) →
              verdict = 1 ∧ reason = 2)
            ∧ ((∀ i j : Trib, i < j → s.plans.plan[p].entries[j].tagBase.toNat + 64 ≤ s.plans.plan[p].entries[i].tagBase.toNat
                ∨ s.plans.plan[p].entries[i].tagBase.toNat + 64 ≤ s.plans.plan[p].entries[j].tagBase.toNat) →
              (∀ n : Trib, s.plans.plan[p].express = some n → s.plans.plan[p].entries[n].borrow = true) →
                verdict = 0 ∧ reason = 0)
            ∧ ((∀ i j : Trib, i < j → s.plans.plan[p].entries[j].tagBase.toNat + 64 ≤ s.plans.plan[p].entries[i].tagBase.toNat
                ∨ s.plans.plan[p].entries[i].tagBase.toNat + 64 ≤ s.plans.plan[p].entries[j].tagBase.toNat) →
              (∃ n : Trib, s.plans.plan[p].express = some n ∧ s.plans.plan[p].entries[n].borrow = false) →
                verdict = 1 ∧ reason = 3)))
      ∧ (1 < (byteAt c.operands 0).toNat → Answers .readPlanOptions c rest .range [] s s))

/-- SWITCH PLAN is answered at once, in order, with RANGE, STATE in a trial, STATE for the running plan or INVALID_PLAN; otherwise it becomes
the command in progress with the switch PENDING and its entry reserved, unanswered, its number standing EXECUTING if it is the last taken, and
nothing else changes (R71, R133, R136); that it is so when no command waits behind it is the model's reading (notes/assumptions/9.md). -/
def Obligations.SwitchPlanIsJudgedThenPending : Prop :=
  ∀ (c : TakenCommand) (rest : List TakenCommand) (s : State), Ready .switchPlan c rest s →
    (1 < (byteAt c.operands 0).toNat ∨ 1 < (byteAt c.operands 1).toNat ∨ (byteAt c.operands 1 = 1 ∧ wordAt c.operands 2 = 0) →
      Answers .switchPlan c rest .range [] s s)
    ∧ ∀ (target : PlanId) (mode : SwitchMode), byteAt c.operands 0 = byteOf target.val →
      (match mode with
        | .firm => byteAt c.operands 1 = 0
        | .trial window => byteAt c.operands 1 = 1 ∧ wordAt c.operands 2 = window.toNat ∧ window ≠ 0) →
      ((target = s.plans.run ∨ ∃ r f, s.plans.switch = .trial r f) →
        Answers .switchPlan c rest .state [byteOf s.plans.run.val, switchCode s.plans] s s)
      ∧ (target ≠ s.plans.run → (∀ r f, s.plans.switch ≠ .trial r f) →
        (∀ reason, s.plans.plan[target].fault = some reason → Answers .switchPlan c rest .invalidPlan [reason.code] s s)
        ∧ (s.plans.plan[target].fault = none →
          ∃ e : Engine,
            exec .switchPlan s = .next { s with plans := { s.plans with switch := .pending target mode }, engine := e }
              ∧ e.commands = rest ∧ e.inProgress = some c ∧ e.reserved = true ∧ e.placed = s.engine.placed
              ∧ e.stored = s.engine.stored ∧ e.lastTaken = standingAt .executing rest s.engine))

/-- CONFIRM PLAN ends a trial in favour of the running plan and returns the remaining cycles; in STEADY it is answered STATE with the run
selector and the switch state (R76). -/
def Obligations.ConfirmPlanEndsTrial : Prop :=
  ∀ (c : TakenCommand) (rest : List TakenCommand) (s : State), Ready .confirmPlan c rest s →
    (∀ r f, s.plans.switch = .trial r f →
      Answers .confirmPlan c rest .ok (bytes16 r.toNat) s { s with plans := { s.plans with switch := .steady } })
    ∧ (s.plans.switch = .steady → Answers .confirmPlan c rest .state [byteOf s.plans.run.val, 0] s s)

/-- WRITE PORT answers RANGE to operands out of range, NO_ROOM with the free buffers and the reserve it would need when the store cannot back
its floors, each with nothing changed; and with the enable flag as it was it writes the four settings and touches nothing else
(R32, R50, R51). -/
def Obligations.WritePortChecksThenWrites : Prop :=
  ∀ (turn : Turn) (c : TakenCommand) (rest : List TakenCommand) (s : State), Ready .writePort c rest s →
    (PortOperandsBad c.operands → Answers (.writePort turn) c rest .range [] s s)
    ∧ ∀ (n : Trib) (e : PortEntry), PortOperands n e c.operands →
      (¬RoomFor (s.ports.table.set n e) s →
        Answers (.writePort turn) c rest .noRoom (bytes16 s.store.free ++ bytes16 (reserveOf (s.ports.table.set n e) s.store)) s s)
      ∧ (RoomFor (s.ports.table.set n e) s → e.enable = s.ports.table[n].enable →
        Answers (.writePort turn) c rest .ok [] s { s with ports := { s.ports with table := s.ports.table.set n e } })

/-- WRITE PORT that sets the enable flag makes the port UP or DOWN by its receiver record and posts PORT_CHANGE; one that clears it cuts all of
Un, takes Tn off the borrow stack, owes an abandon cell if its head message had started, ends the ingress record, flushes Dn, gives up its
OPEN channel entries and posts PORT_CHANGE, before or after any MESSAGE_CUT of the store as the operand says, the messages cut being one for
each queued end cell, one for an open tail and one for a started head with no cell left (R28, R51, R98, R120, R147). That both postings are
taken in the step of the command is the model's choice (notes/assumptions/17.md). -/
def Obligations.WritePortChangesEnable : Prop :=
  ∀ (turn : Turn) (c : TakenCommand) (rest : List TakenCommand) (s : State) (n : Trib) (e : PortEntry), Ready .writePort c rest s →
    PortOperands n e c.operands → RoomFor (s.ports.table.set n e) s →
    (s.ports.table[n].enable = false → e.enable = true →
      Answers (.writePort turn) c rest .ok [] s
        (post .portChange (byteOf n.val) (if s.ports.rxLocked[n] then 2 else 1)
          { s with ports := { s.ports with table := s.ports.table.set n e } }))
    ∧ (s.ports.table[n].enable = true → e.enable = false → s.channels.wf = true →
      ∃ t, exec (.writePort turn) s = .next t ∧ Completed c rest .ok [] s.engine t.engine
        ∧ t.ports =
          { s.ports with table := s.ports.table.set n e, ingress := s.ports.ingress.set n .idle }
        ∧ t.store =
          { s.store with
            free := s.store.free + s.store.up[n].cells.length + s.store.down[n].length
            up := s.store.up.set n { cells := [], complete := 0, head := none }
            down := s.store.down.set n [] }
        ∧ t.scheduler =
          { s.scheduler with
            borrow := s.scheduler.borrow.filter fun m => m != n
            abandon := s.scheduler.abandon ++
              (match s.store.up[n].head with
                | some h => [{ trib := n, tag := h.tag, next := h.next }]
                | none => []) }
        ∧ GivenUp (fun m => m == n) s t
        ∧ t.bank.up = s.bank.up.set n
          { s.bank.up[n] with
            messagesCut := s.bank.up[n].messagesCut + BitVec.ofNat 32 (messagesOf s.store.up[n]) }
        ∧ t.bank.down = s.bank.down.set n
          { s.bank.down[n] with discarded := s.bank.down[n].discarded + BitVec.ofNat 32 (s.channels.openCount n) }
        ∧ t.notices = (bothPosted turn (post .portChange (byteOf n.val) 0) (cutPosting n 7 s.store.up[n]) s).notices
        ∧ t.bank.management =
          (bothPosted turn (post .portChange (byteOf n.val) 0) (cutPosting n 7 s.store.up[n]) s).bank.management
        ∧ t.plans = s.plans ∧ t.links = s.links ∧ t.survey = s.survey ∧ t.pins = s.pins ∧ t.bank.trunk = s.bank.trunk)

/-- READ PORT returns the port's eleven bytes and READ CHANNEL the entry's nine, 0xFF for absent items, as they stand; each answers RANGE to
an operand out of range and changes nothing (R49, R124). -/
def Obligations.PortAndChannelReadsReport : Prop :=
  ∀ (c : TakenCommand) (rest : List TakenCommand) (s : State),
    (Ready .readPort c rest s →
      (∀ n : Trib, byteAt c.operands 0 = byteOf n.val →
        Answers .readPort c rest .ok
          [match s.ports.state n with | .disabled => 0 | .down => 1 | .up => 2, flagByte s.ports.table[n].enable,
            byteOf s.ports.table[n].upFloor, byteOf s.ports.table[n].upCeiling, byteOf s.ports.table[n].downFloor,
            byteOf s.ports.table[n].downCeiling, byteOf s.store.up[n].cells.length, byteOf s.store.down[n].length,
            match s.ports.ingress[n] with | .idle => 0 | .opened _ _ _ _ _ => 1 | .discarding => 2,
            byteOf s.store.up[n].complete, flagByte s.store.up[n].head.isSome] s s)
      ∧ (7 < (byteAt c.operands 0).toNat → Answers .readPort c rest .range [] s s))
    ∧ (Ready .readChannel c rest s →
      (∀ e : ChannelEntry, wordAt c.operands 0 < 1008 → s.channels.get (wordAt c.operands 0) = e →
        ∃ data, Answers .readChannel c rest .ok data s s ∧ data.length = 9
          ∧ byteAt data 0 = (match e.mask with | .none => 0 | .p0 => 1 | .p1 => 2 | .both => 3)
          ∧ byteAt data 1 = byteOf e.trib.val ∧ byteAt data 2 = byteOf e.channel.toNat
          ∧ byteAt data 3 = flagByte (e.mask.includes s.plans.run)
          ∧ [byteAt data 4, byteAt data 5, byteAt data 6, byteAt data 7, byteAt data 8] =
            match e.current with
            | .idle => [0, 0xFF, 0xFF, 0xFF, 0]
            | .opened n channel next => [1, byteOf n.val, byteOf channel.toNat, byteOf next.toNat, 1]
            | .discarding n channel next d => [2, byteOf n.val, byteOf channel.toNat, byteOf next.toNat, flagByte d]
            | .discardingInactive => [2, 0xFF, 0xFF, 0xFF, 0])
      ∧ (1008 ≤ wordAt c.operands 0 → Answers .readChannel c rest .range [] s s))

/-- FLUSH PORT of the uplink side cuts all of Un and turns an OPEN ingress record into DISCARDING; of the downlink side empties Dn and gives up
its OPEN channel entries; of both does both; the response counts the cells removed, 0 for a side not named, and *messages cut* rises by one for
each queued end cell, one for an open tail and one for a started head with no cell left; other operands are answered RANGE
(R28, R31, R52, R98, R120). -/
def Obligations.FlushPortEmptiesNamedSides : Prop :=
  ∀ (c : TakenCommand) (rest : List TakenCommand) (s : State), Ready .flushPort c rest s →
    (7 < (byteAt c.operands 0).toNat ∨ (byteAt c.operands 1).toNat = 0 ∨ 3 < (byteAt c.operands 1).toNat →
      Answers .flushPort c rest .range [] s s)
    ∧ ∀ n : Trib, byteAt c.operands 0 = byteOf n.val → s.channels.wf = true →
      (byteAt c.operands 1 = 1 ∨ byteAt c.operands 1 = 2 ∨ byteAt c.operands 1 = 3) →
      ∃ (t : State) (up down : Nat), exec .flushPort s = .next t
        ∧ up = (if byteAt c.operands 1 = 2 then 0 else s.store.up[n].cells.length)
        ∧ down = (if byteAt c.operands 1 = 1 then 0 else s.store.down[n].length)
        ∧ Completed c rest .ok [byteOf up, byteOf down] s.engine t.engine
        ∧ t.store.free = s.store.free + up + down
        ∧ (byteAt c.operands 1 ≠ 2 →
            t.store.up = s.store.up.set n { cells := [], complete := 0, head := none }
              ∧ t.scheduler =
                { s.scheduler with
                  borrow := s.scheduler.borrow.filter fun m => m != n
                  abandon := s.scheduler.abandon ++
                    (match s.store.up[n].head with
                      | some h => [{ trib := n, tag := h.tag, next := h.next }]
                      | none => []) }
              ∧ t.ports =
                { s.ports with
                  ingress :=
                    match s.ports.ingress[n] with
                    | .opened _ _ _ _ _ => s.ports.ingress.set n .discarding
                    | _ => s.ports.ingress }
              ∧ t.notices = (cutPosting n 8 s.store.up[n] s).notices
              ∧ t.bank.management = (cutPosting n 8 s.store.up[n] s).bank.management
              ∧ t.bank.up = s.bank.up.set n
                { s.bank.up[n] with
                  messagesCut := s.bank.up[n].messagesCut + BitVec.ofNat 32 (messagesOf s.store.up[n]) })
        ∧ (byteAt c.operands 1 = 2 →
            t.store.up = s.store.up ∧ t.scheduler = s.scheduler ∧ t.ports = s.ports ∧ t.notices = s.notices ∧ t.bank.up = s.bank.up)
        ∧ (byteAt c.operands 1 ≠ 1 →
            t.store.down = s.store.down.set n [] ∧ GivenUp (fun m => m == n) s t
              ∧ t.bank.down = s.bank.down.set n
                { s.bank.down[n] with discarded := s.bank.down[n].discarded + BitVec.ofNat 32 (s.channels.openCount n) })
        ∧ (byteAt c.operands 1 = 1 →
            t.store.down = s.store.down ∧ t.channels = s.channels ∧ t.bank.down = s.bank.down)
        ∧ t.plans = s.plans ∧ t.links = s.links ∧ t.survey = s.survey ∧ t.pins = s.pins ∧ t.bank.trunk = s.bank.trunk

/-- WRITE CHANNELS writes the configured part of the tags named, on consecutive local channels, keeps every current part and every other entry,
and returns the count; operands out of range are answered RANGE with nothing written (R122, R123). That the map is a list of entries in a
canonical form, and that this form is kept, is the model's representation (notes/assumptions/14.md). -/
def Obligations.WriteChannelsWritesConfiguredParts : Prop :=
  ∀ (c : TakenCommand) (rest : List TakenCommand) (s : State), Ready .writeChannels c rest s → s.channels.wf = true →
    (∀ (n : Trib) (mask : PlanMask), byteAt c.operands 3 = byteOf n.val → byteAt c.operands 5 = mask.code →
      1 ≤ (byteAt c.operands 2).toNat → (byteAt c.operands 2).toNat ≤ 64 →
      wordAt c.operands 0 + (byteAt c.operands 2).toNat ≤ 1008 → (byteAt c.operands 4).toNat + (byteAt c.operands 2).toNat ≤ 64 →
      ∃ m : ChannelMap, Answers .writeChannels c rest .ok [byteAt c.operands 2] s { s with channels := m } ∧ m.wf = true
        ∧ ∀ tag : Nat, m.get tag =
          if wordAt c.operands 0 ≤ tag ∧ tag < wordAt c.operands 0 + (byteAt c.operands 2).toNat then
            { s.channels.get tag with
              mask := mask
              trib := n
              channel := BitVec.ofNat 6 ((byteAt c.operands 4).toNat + (tag - wordAt c.operands 0)) }
          else s.channels.get tag)
    ∧ ((byteAt c.operands 2).toNat = 0 ∨ 64 < (byteAt c.operands 2).toNat ∨ 1008 < wordAt c.operands 0 + (byteAt c.operands 2).toNat
        ∨ 64 < (byteAt c.operands 4).toNat + (byteAt c.operands 2).toNat ∨ 7 < (byteAt c.operands 3).toNat
        ∨ 3 < (byteAt c.operands 5).toNat → Answers .writeChannels c rest .range [] s s)

/-- READ COUNTERS returns the seven counters of a group set most significant byte first and changes nothing; CLEAR COUNTERS returns the same and
sets those seven to 0, no other group touched; operands that name no group set are answered RANGE (R163 to R168). -/
def Obligations.CountersAreReadAndCleared : Prop :=
  ∀ (c : TakenCommand) (rest : List TakenCommand) (s : State),
    (∀ g : CounterGroup, NamesGroup c.operands g →
      (Ready .readCounters c rest s →
        ∃ data, Answers .readCounters c rest .ok data s s ∧ SpellsCounters data (s.bank.values g))
      ∧ (Ready .clearCounters c rest s →
        ∃ (data : List Byte) (b : CounterBank), Answers .clearCounters c rest .ok data s { s with bank := b }
          ∧ SpellsCounters data (s.bank.values g) ∧ b.values g = List.replicate 7 0 ∧ ∀ h, h ≠ g → b.values h = s.bank.values h))
    ∧ ((∀ g, ¬NamesGroup c.operands g) →
      (Ready .readCounters c rest s → Answers .readCounters c rest .range [] s s)
      ∧ (Ready .clearCounters c rest s → Answers .clearCounters c rest .range [] s s))

/-- START SURVEY from IDLE or DONE clears the record, takes the window and arms; STOP SURVEY ends a survey with window 0 that is ARMED or
RUNNING, with the stopped flag set and the cycles counted returned; in every other case each is answered STATE with the survey state and the
window, and the survey continues (R170, R174). -/
def Obligations.SurveyIsStartedAndStopped : Prop :=
  ∀ (c : TakenCommand) (rest : List TakenCommand) (s : State),
    (Ready .startSurvey c rest s →
      (s.survey.state = .idle ∨ s.survey.state = .done →
        Answers .startSurvey c rest .ok [] s
          { s with
            survey :=
              { state := .armed, window := BitVec.ofNat 16 (wordAt c.operands 0), own := Vector.replicate 8 0,
                borrowed := Vector.replicate 8 0, idle := 0, management := 0, abandon := 0, cycles := 0, planSwitched := false,
                lockLost := false, stopped := false } })
      ∧ (s.survey.state = .armed → Answers .startSurvey c rest .state (1 :: bytes16 s.survey.window.toNat) s s)
      ∧ (s.survey.state = .running → Answers .startSurvey c rest .state (2 :: bytes16 s.survey.window.toNat) s s))
    ∧ (Ready .stopSurvey c rest s →
      ((s.survey.state = .armed ∨ s.survey.state = .running) → s.survey.window = 0 →
        Answers .stopSurvey c rest .ok (bytes16 s.survey.cycles.toNat) s
          { s with survey := { s.survey with state := .done, stopped := true } })
      ∧ (s.survey.state = .idle ∨ s.survey.state = .done ∨ s.survey.window ≠ 0 →
        Answers .stopSurvey c rest .state
          ((match s.survey.state with | .idle => 0 | .armed => 1 | .running => 2 | .done => 3) :: bytes16 s.survey.window.toNat) s s))

/-- READ SURVEY returns the page named as the record stands, answers RANGE to any other page, and changes nothing (R175). -/
def Obligations.ReadSurveyReportsPages : Prop :=
  ∀ (c : TakenCommand) (rest : List TakenCommand) (s : State) (data : List Byte), Ready .readSurvey c rest s →
    ((byteAt c.operands 0).toNat ≤ 1 → Answers .readSurvey c rest .ok data s s →
      data.length = 19 ∧ wordAt data 1 = s.survey.cycles.toNat
        ∧ ∀ n : Trib, n.val / 4 = (byteAt c.operands 0).toNat →
          wordAt data (3 + 4 * (n.val % 4)) = s.survey.own[n].toNat ∧ wordAt data (5 + 4 * (n.val % 4)) = s.survey.borrowed[n].toNat)
    ∧ (byteAt c.operands 0 = 2 → Answers .readSurvey c rest .ok data s s →
      data.length = 12 ∧ wordAt data 1 = s.survey.cycles.toNat ∧ wordAt data 3 = s.survey.idle.toNat
        ∧ wordAt data 5 = s.survey.management.toNat ∧ wordAt data 7 = s.survey.abandon.toNat
        ∧ (byteAt data 9).toNat =
          (if s.survey.planSwitched then 1 else 0) + (if s.survey.lockLost then 2 else 0) + (if s.survey.stopped then 4 else 0)
        ∧ wordAt data 10 = s.survey.window.toNat)
    ∧ ((byteAt c.operands 0).toNat ≤ 2 →
      ∃ page, Answers .readSurvey c rest .ok page s s
        ∧ byteAt page 0 = (match s.survey.state with | .idle => 0 | .armed => 1 | .running => 2 | .done => 3))
    ∧ (2 < (byteAt c.operands 0).toNat → Answers .readSurvey c rest .range [] s s)

/-- ACK NOTICE removes the record whose count is acknowledged, makes one with a greater count WAITING again, leaves one with a smaller count,
finds none otherwise, and says which; a zero operand is answered RANGE (R156). -/
def Obligations.AckNoticeJudgesByCount : Prop :=
  ∀ (c : TakenCommand) (rest : List TakenCommand) (s : State), Ready .ackNotice c rest s →
    (byteAt c.operands 0 = 0 ∨ byteAt c.operands 1 = 0 → Answers .ackNotice c rest .range [] s s)
    ∧ (byteAt c.operands 0 ≠ 0 → byteAt c.operands 1 ≠ 0 →
      ((∀ x ∈ s.notices.records, x.number ≠ byteAt c.operands 0) → Answers .ackNotice c rest .ok [2, 0] s s)
      ∧ ∀ before r after, s.notices.records = before ++ r :: after → r.number = byteAt c.operands 0 →
        (∀ x ∈ before ++ after, x.number ≠ byteAt c.operands 0) →
        (r.count = byteAt c.operands 1 →
          Answers .ackNotice c rest .ok [0, 0] s { s with notices := { s.notices with records := before ++ after } })
        ∧ ((byteAt c.operands 1).toNat < r.count.toNat →
          Answers .ackNotice c rest .ok [1, r.count] s
            { s with notices := { s.notices with records := before ++ { r with state := .waiting } :: after } })
        ∧ (r.count.toNat < (byteAt c.operands 1).toNat → Answers .ackNotice c rest .ok [3, r.count] s s))

/-- SET NOTICE OPTIONS takes the mask with bits 1 and 15 held at 1 and the interval, and returns both; an interval of 0 or a set bit 0 or 11 to
14 is answered RANGE with both options kept (R158). -/
def Obligations.SetNoticeOptionsHoldsTwoBits : Prop :=
  ∀ (c : TakenCommand) (rest : List TakenCommand) (s : State) (given mask : BitVec 16), Ready .setNoticeOptions c rest s →
    given = byteAt c.operands 0 ++ byteAt c.operands 1 →
    (∀ k : Nat, k < 16 → mask.getLsbD k = (given.getLsbD k || k == 1 || k == 15)) →
    (byteAt c.operands 2 = 0 ∨ given.getLsbD 0 = true ∨ (∃ k : Nat, 11 ≤ k ∧ k ≤ 14 ∧ given.getLsbD k = true) →
      Answers .setNoticeOptions c rest .range [] s s)
    ∧ (byteAt c.operands 2 ≠ 0 → given.getLsbD 0 = false → (∀ k : Nat, 11 ≤ k → k ≤ 14 → given.getLsbD k = false) →
      Answers .setNoticeOptions c rest .ok [mask.extractLsb' 8 8, mask.extractLsb' 0 8, byteAt c.operands 2] s
        { s with notices := { s.notices with mask := mask, interval := byteAt c.operands 2 } })
end

