-- ==== Sys2Proof/Laws/State.lean ====
section
/-! SUPPORT. What each named operation leaves alone, one block of the state a line, so that no proof unfolds a record update. -/

namespace Sys2Proof.Laws

set_option Elab.async false

open Sys2Proof.Machine

/-- A count in an Uplink group changes the counter bank only. -/
@[simp] theorem countUp_leaves (n : Trib) (f : UplinkCounters → UplinkCounters) (s : State) :
    (countUp n f s).pending = s.pending ∧ (countUp n f s).pins = s.pins ∧ (countUp n f s).links = s.links
      ∧ (countUp n f s).store = s.store ∧ (countUp n f s).ports = s.ports ∧ (countUp n f s).plans = s.plans
      ∧ (countUp n f s).scheduler = s.scheduler ∧ (countUp n f s).channels = s.channels ∧ (countUp n f s).engine = s.engine
      ∧ (countUp n f s).notices = s.notices ∧ (countUp n f s).survey = s.survey := by
  refine ⟨rfl, rfl, rfl, rfl, rfl, rfl, rfl, rfl, rfl, rfl, rfl⟩

/-- A count in a Downlink group changes the counter bank only. -/
@[simp] theorem countDown_leaves (n : Trib) (f : DownlinkCounters → DownlinkCounters) (s : State) :
    (countDown n f s).pending = s.pending ∧ (countDown n f s).pins = s.pins ∧ (countDown n f s).links = s.links
      ∧ (countDown n f s).store = s.store ∧ (countDown n f s).ports = s.ports ∧ (countDown n f s).plans = s.plans
      ∧ (countDown n f s).scheduler = s.scheduler ∧ (countDown n f s).channels = s.channels ∧ (countDown n f s).engine = s.engine
      ∧ (countDown n f s).notices = s.notices ∧ (countDown n f s).survey = s.survey := by
  refine ⟨rfl, rfl, rfl, rfl, rfl, rfl, rfl, rfl, rfl, rfl, rfl⟩

/-- A count in the Trunk receive group changes the counter bank only. -/
@[simp] theorem countTrunk_leaves (f : TrunkCounters → TrunkCounters) (s : State) :
    (countTrunk f s).pending = s.pending ∧ (countTrunk f s).pins = s.pins ∧ (countTrunk f s).links = s.links
      ∧ (countTrunk f s).store = s.store ∧ (countTrunk f s).ports = s.ports ∧ (countTrunk f s).plans = s.plans
      ∧ (countTrunk f s).scheduler = s.scheduler ∧ (countTrunk f s).channels = s.channels ∧ (countTrunk f s).engine = s.engine
      ∧ (countTrunk f s).notices = s.notices ∧ (countTrunk f s).survey = s.survey := by
  refine ⟨rfl, rfl, rfl, rfl, rfl, rfl, rfl, rfl, rfl, rfl, rfl⟩

/-- A count in the Management group changes the counter bank only. -/
@[simp] theorem countManagement_leaves (f : ManagementCounters → ManagementCounters) (s : State) :
    (countManagement f s).pending = s.pending ∧ (countManagement f s).pins = s.pins ∧ (countManagement f s).links = s.links
      ∧ (countManagement f s).store = s.store ∧ (countManagement f s).ports = s.ports ∧ (countManagement f s).plans = s.plans
      ∧ (countManagement f s).scheduler = s.scheduler ∧ (countManagement f s).channels = s.channels
      ∧ (countManagement f s).engine = s.engine ∧ (countManagement f s).notices = s.notices ∧ (countManagement f s).survey = s.survey := by
  refine ⟨rfl, rfl, rfl, rfl, rfl, rfl, rfl, rfl, rfl, rfl, rfl⟩

/-- Replacing an uplink queue changes the cell store only. -/
@[simp] theorem setUp_leaves (n : Trib) (q : UpQueue) (s : State) :
    (setUp n q s).pending = s.pending ∧ (setUp n q s).pins = s.pins ∧ (setUp n q s).links = s.links ∧ (setUp n q s).ports = s.ports
      ∧ (setUp n q s).plans = s.plans ∧ (setUp n q s).scheduler = s.scheduler ∧ (setUp n q s).channels = s.channels
      ∧ (setUp n q s).engine = s.engine ∧ (setUp n q s).notices = s.notices ∧ (setUp n q s).bank = s.bank
      ∧ (setUp n q s).survey = s.survey := by
  refine ⟨rfl, rfl, rfl, rfl, rfl, rfl, rfl, rfl, rfl, rfl, rfl⟩

/-- Replacing a downlink queue changes the cell store only. -/
@[simp] theorem setDown_leaves (n : Trib) (cells : List Cell) (s : State) :
    (setDown n cells s).pending = s.pending ∧ (setDown n cells s).pins = s.pins ∧ (setDown n cells s).links = s.links
      ∧ (setDown n cells s).ports = s.ports ∧ (setDown n cells s).plans = s.plans ∧ (setDown n cells s).scheduler = s.scheduler
      ∧ (setDown n cells s).channels = s.channels ∧ (setDown n cells s).engine = s.engine ∧ (setDown n cells s).notices = s.notices
      ∧ (setDown n cells s).bank = s.bank ∧ (setDown n cells s).survey = s.survey := by
  refine ⟨rfl, rfl, rfl, rfl, rfl, rfl, rfl, rfl, rfl, rfl, rfl⟩

/-- Returning buffers changes the cell store only. -/
@[simp] theorem freeBuffers_leaves (k : Nat) (s : State) :
    (freeBuffers k s).pending = s.pending ∧ (freeBuffers k s).pins = s.pins ∧ (freeBuffers k s).links = s.links
      ∧ (freeBuffers k s).ports = s.ports ∧ (freeBuffers k s).plans = s.plans ∧ (freeBuffers k s).scheduler = s.scheduler
      ∧ (freeBuffers k s).channels = s.channels ∧ (freeBuffers k s).engine = s.engine ∧ (freeBuffers k s).notices = s.notices
      ∧ (freeBuffers k s).bank = s.bank ∧ (freeBuffers k s).survey = s.survey := by
  refine ⟨rfl, rfl, rfl, rfl, rfl, rfl, rfl, rfl, rfl, rfl, rfl⟩

/-- Taking a buffer changes the cell store only. -/
@[simp] theorem takeBuffer_leaves (s : State) :
    (takeBuffer s).pending = s.pending ∧ (takeBuffer s).pins = s.pins ∧ (takeBuffer s).links = s.links ∧ (takeBuffer s).ports = s.ports
      ∧ (takeBuffer s).plans = s.plans ∧ (takeBuffer s).scheduler = s.scheduler ∧ (takeBuffer s).channels = s.channels
      ∧ (takeBuffer s).engine = s.engine ∧ (takeBuffer s).notices = s.notices ∧ (takeBuffer s).bank = s.bank
      ∧ (takeBuffer s).survey = s.survey := by
  refine ⟨rfl, rfl, rfl, rfl, rfl, rfl, rfl, rfl, rfl, rfl, rfl⟩

/-- Placing an abandon entry changes the scheduler only. -/
@[simp] theorem addAbandon_leaves (n : Trib) (h : HeadMessage) (s : State) :
    (addAbandon n h s).pending = s.pending ∧ (addAbandon n h s).pins = s.pins ∧ (addAbandon n h s).links = s.links
      ∧ (addAbandon n h s).store = s.store ∧ (addAbandon n h s).ports = s.ports ∧ (addAbandon n h s).plans = s.plans
      ∧ (addAbandon n h s).channels = s.channels ∧ (addAbandon n h s).engine = s.engine ∧ (addAbandon n h s).notices = s.notices
      ∧ (addAbandon n h s).bank = s.bank ∧ (addAbandon n h s).survey = s.survey := by
  refine ⟨rfl, rfl, rfl, rfl, rfl, rfl, rfl, rfl, rfl, rfl, rfl⟩

/-- Leaving the borrow stack changes the scheduler only. -/
@[simp] theorem leaveBorrow_leaves (n : Trib) (s : State) :
    (leaveBorrow n s).pending = s.pending ∧ (leaveBorrow n s).pins = s.pins ∧ (leaveBorrow n s).links = s.links
      ∧ (leaveBorrow n s).store = s.store ∧ (leaveBorrow n s).ports = s.ports ∧ (leaveBorrow n s).plans = s.plans
      ∧ (leaveBorrow n s).channels = s.channels ∧ (leaveBorrow n s).engine = s.engine ∧ (leaveBorrow n s).notices = s.notices
      ∧ (leaveBorrow n s).bank = s.bank ∧ (leaveBorrow n s).survey = s.survey := by
  refine ⟨rfl, rfl, rfl, rfl, rfl, rfl, rfl, rfl, rfl, rfl, rfl⟩

/-- Replacing an ingress record changes the ports only. -/
@[simp] theorem setIngress_leaves (n : Trib) (i : Ingress) (s : State) :
    (setIngress n i s).pending = s.pending ∧ (setIngress n i s).pins = s.pins ∧ (setIngress n i s).links = s.links
      ∧ (setIngress n i s).store = s.store ∧ (setIngress n i s).plans = s.plans ∧ (setIngress n i s).scheduler = s.scheduler
      ∧ (setIngress n i s).channels = s.channels ∧ (setIngress n i s).engine = s.engine ∧ (setIngress n i s).notices = s.notices
      ∧ (setIngress n i s).bank = s.bank ∧ (setIngress n i s).survey = s.survey := by
  refine ⟨rfl, rfl, rfl, rfl, rfl, rfl, rfl, rfl, rfl, rfl, rfl⟩

/-- Replacing a receiver record changes the ports only. -/
@[simp] theorem setRxLocked_leaves (n : Trib) (b : Bool) (s : State) :
    (setRxLocked n b s).pending = s.pending ∧ (setRxLocked n b s).pins = s.pins ∧ (setRxLocked n b s).links = s.links
      ∧ (setRxLocked n b s).store = s.store ∧ (setRxLocked n b s).plans = s.plans ∧ (setRxLocked n b s).scheduler = s.scheduler
      ∧ (setRxLocked n b s).channels = s.channels ∧ (setRxLocked n b s).engine = s.engine ∧ (setRxLocked n b s).notices = s.notices
      ∧ (setRxLocked n b s).bank = s.bank ∧ (setRxLocked n b s).survey = s.survey := by
  refine ⟨rfl, rfl, rfl, rfl, rfl, rfl, rfl, rfl, rfl, rfl, rfl⟩

/-- Replacing the port table changes the ports only. -/
@[simp] theorem setTable_leaves (table : Vector PortEntry 8) (s : State) :
    (setTable table s).pending = s.pending ∧ (setTable table s).pins = s.pins ∧ (setTable table s).links = s.links
      ∧ (setTable table s).store = s.store ∧ (setTable table s).plans = s.plans ∧ (setTable table s).scheduler = s.scheduler
      ∧ (setTable table s).channels = s.channels ∧ (setTable table s).engine = s.engine ∧ (setTable table s).notices = s.notices
      ∧ (setTable table s).bank = s.bank ∧ (setTable table s).survey = s.survey := by
  refine ⟨rfl, rfl, rfl, rfl, rfl, rfl, rfl, rfl, rfl, rfl, rfl⟩

/-- Replacing a current part changes the channel map only. -/
@[simp] theorem setCurrent_leaves (tag : Tag) (c : Current) (s : State) :
    (setCurrent tag c s).pending = s.pending ∧ (setCurrent tag c s).pins = s.pins ∧ (setCurrent tag c s).links = s.links
      ∧ (setCurrent tag c s).store = s.store ∧ (setCurrent tag c s).ports = s.ports ∧ (setCurrent tag c s).plans = s.plans
      ∧ (setCurrent tag c s).scheduler = s.scheduler ∧ (setCurrent tag c s).engine = s.engine
      ∧ (setCurrent tag c s).notices = s.notices ∧ (setCurrent tag c s).bank = s.bank ∧ (setCurrent tag c s).survey = s.survey := by
  refine ⟨rfl, rfl, rfl, rfl, rfl, rfl, rfl, rfl, rfl, rfl, rfl⟩

/-- What a tributary transmitter sends changes the links only. -/
@[simp] theorem setTribTx_leaves (n : Trib) (c : Cell) (s : State) :
    (setTribTx n c s).pending = s.pending ∧ (setTribTx n c s).pins = s.pins ∧ (setTribTx n c s).store = s.store
      ∧ (setTribTx n c s).ports = s.ports ∧ (setTribTx n c s).plans = s.plans ∧ (setTribTx n c s).scheduler = s.scheduler
      ∧ (setTribTx n c s).channels = s.channels ∧ (setTribTx n c s).engine = s.engine ∧ (setTribTx n c s).notices = s.notices
      ∧ (setTribTx n c s).bank = s.bank ∧ (setTribTx n c s).survey = s.survey := by
  refine ⟨rfl, rfl, rfl, rfl, rfl, rfl, rfl, rfl, rfl, rfl, rfl⟩

/-- Replacing the records changes the notice list only. -/
@[simp] theorem setRecords_leaves (records : List NoticeRecord) (s : State) :
    (setRecords records s).pending = s.pending ∧ (setRecords records s).pins = s.pins ∧ (setRecords records s).links = s.links
      ∧ (setRecords records s).store = s.store ∧ (setRecords records s).ports = s.ports ∧ (setRecords records s).plans = s.plans
      ∧ (setRecords records s).scheduler = s.scheduler ∧ (setRecords records s).channels = s.channels
      ∧ (setRecords records s).engine = s.engine ∧ (setRecords records s).bank = s.bank ∧ (setRecords records s).survey = s.survey := by
  refine ⟨rfl, rfl, rfl, rfl, rfl, rfl, rfl, rfl, rfl, rfl, rfl⟩

/-- A completion changes the engine only. -/
@[simp] theorem complete_leaves (c : TakenCommand) (r : Result) (d : List Byte) (s : State) :
    (complete c r d s).pending = s.pending ∧ (complete c r d s).pins = s.pins ∧ (complete c r d s).links = s.links
      ∧ (complete c r d s).store = s.store ∧ (complete c r d s).ports = s.ports ∧ (complete c r d s).plans = s.plans
      ∧ (complete c r d s).scheduler = s.scheduler ∧ (complete c r d s).channels = s.channels ∧ (complete c r d s).notices = s.notices
      ∧ (complete c r d s).bank = s.bank ∧ (complete c r d s).survey = s.survey := by
  refine ⟨rfl, rfl, rfl, rfl, rfl, rfl, rfl, rfl, rfl, rfl, rfl⟩

/-- The start of an execution changes the engine only. -/
@[simp] theorem beginCommand_leaves (rest : List TakenCommand) (s : State) :
    (beginCommand rest s).pending = s.pending ∧ (beginCommand rest s).pins = s.pins ∧ (beginCommand rest s).links = s.links
      ∧ (beginCommand rest s).store = s.store ∧ (beginCommand rest s).ports = s.ports ∧ (beginCommand rest s).plans = s.plans
      ∧ (beginCommand rest s).scheduler = s.scheduler ∧ (beginCommand rest s).channels = s.channels
      ∧ (beginCommand rest s).notices = s.notices ∧ (beginCommand rest s).bank = s.bank ∧ (beginCommand rest s).survey = s.survey := by
  refine ⟨rfl, rfl, rfl, rfl, rfl, rfl, rfl, rfl, rfl, rfl, rfl⟩

/-- A receiver changes the links only. -/
@[simp] theorem setReceiver_leaves (l : Link) (r : Receiver) (s : State) :
    (setReceiver l r s).pending = s.pending ∧ (setReceiver l r s).pins = s.pins ∧ (setReceiver l r s).store = s.store
      ∧ (setReceiver l r s).ports = s.ports ∧ (setReceiver l r s).plans = s.plans ∧ (setReceiver l r s).scheduler = s.scheduler
      ∧ (setReceiver l r s).channels = s.channels ∧ (setReceiver l r s).engine = s.engine ∧ (setReceiver l r s).notices = s.notices
      ∧ (setReceiver l r s).bank = s.bank ∧ (setReceiver l r s).survey = s.survey := by
  cases l <;> exact ⟨rfl, rfl, rfl, rfl, rfl, rfl, rfl, rfl, rfl, rfl, rfl⟩

/-- A signal changes the links only. -/
@[simp] theorem setSignal_leaves (l : Link) (b : Bool) (s : State) :
    (setSignal l b s).pending = s.pending ∧ (setSignal l b s).pins = s.pins ∧ (setSignal l b s).store = s.store
      ∧ (setSignal l b s).ports = s.ports ∧ (setSignal l b s).plans = s.plans ∧ (setSignal l b s).scheduler = s.scheduler
      ∧ (setSignal l b s).channels = s.channels ∧ (setSignal l b s).engine = s.engine ∧ (setSignal l b s).notices = s.notices
      ∧ (setSignal l b s).bank = s.bank ∧ (setSignal l b s).survey = s.survey := by
  cases l <;> exact ⟨rfl, rfl, rfl, rfl, rfl, rfl, rfl, rfl, rfl, rfl, rfl⟩

/-- A plan change reported changes the survey only. -/
@[simp] theorem reportPlanChange_leaves (s : State) :
    (reportPlanChange s).pending = s.pending ∧ (reportPlanChange s).pins = s.pins ∧ (reportPlanChange s).links = s.links
      ∧ (reportPlanChange s).store = s.store ∧ (reportPlanChange s).ports = s.ports ∧ (reportPlanChange s).plans = s.plans
      ∧ (reportPlanChange s).scheduler = s.scheduler ∧ (reportPlanChange s).channels = s.channels
      ∧ (reportPlanChange s).engine = s.engine ∧ (reportPlanChange s).notices = s.notices ∧ (reportPlanChange s).bank = s.bank := by
  unfold reportPlanChange
  repeat' split
  all_goals simp

/-- A lock loss reported changes the survey only. -/
@[simp] theorem reportLockLoss_leaves (s : State) :
    (reportLockLoss s).pending = s.pending ∧ (reportLockLoss s).pins = s.pins ∧ (reportLockLoss s).links = s.links
      ∧ (reportLockLoss s).store = s.store ∧ (reportLockLoss s).ports = s.ports ∧ (reportLockLoss s).plans = s.plans
      ∧ (reportLockLoss s).scheduler = s.scheduler ∧ (reportLockLoss s).channels = s.channels ∧ (reportLockLoss s).engine = s.engine
      ∧ (reportLockLoss s).notices = s.notices ∧ (reportLockLoss s).bank = s.bank := by
  unfold reportLockLoss
  repeat' split
  all_goals simp

/-- A slot reported changes the survey only. -/
@[simp] theorem reportSlot_leaves (k : SlotKind) (s : State) :
    (reportSlot k s).pending = s.pending ∧ (reportSlot k s).pins = s.pins ∧ (reportSlot k s).links = s.links
      ∧ (reportSlot k s).store = s.store ∧ (reportSlot k s).ports = s.ports ∧ (reportSlot k s).plans = s.plans
      ∧ (reportSlot k s).scheduler = s.scheduler ∧ (reportSlot k s).channels = s.channels ∧ (reportSlot k s).engine = s.engine
      ∧ (reportSlot k s).notices = s.notices ∧ (reportSlot k s).bank = s.bank := by
  unfold reportSlot
  repeat' split
  all_goals simp

/-- A posting changes the notice list and the counter bank only. -/
@[simp] theorem post_leaves (kind : NoticeKind) (subject detail : Byte) (s : State) :
    (post kind subject detail s).pending = s.pending ∧ (post kind subject detail s).pins = s.pins
      ∧ (post kind subject detail s).links = s.links ∧ (post kind subject detail s).store = s.store
      ∧ (post kind subject detail s).ports = s.ports ∧ (post kind subject detail s).plans = s.plans
      ∧ (post kind subject detail s).scheduler = s.scheduler ∧ (post kind subject detail s).channels = s.channels
      ∧ (post kind subject detail s).engine = s.engine ∧ (post kind subject detail s).survey = s.survey := by
  unfold post
  repeat' split
  all_goals simp

/-- A posting of a change of port state changes the notice list and the counter bank only. -/
@[simp] theorem postStateChange_leaves (n : Trib) (b a : PortState) (s : State) :
    (postStateChange n b a s).pending = s.pending ∧ (postStateChange n b a s).pins = s.pins ∧ (postStateChange n b a s).links = s.links
      ∧ (postStateChange n b a s).store = s.store ∧ (postStateChange n b a s).ports = s.ports
      ∧ (postStateChange n b a s).plans = s.plans ∧ (postStateChange n b a s).scheduler = s.scheduler
      ∧ (postStateChange n b a s).channels = s.channels ∧ (postStateChange n b a s).engine = s.engine
      ∧ (postStateChange n b a s).survey = s.survey := by
  unfold postStateChange
  repeat' split
  all_goals simp

/-- A posting of an entry to LOCKED changes the notice list and the counter bank only. -/
@[simp] theorem postLocked_leaves (l : Link) (b a : Ports) (s : State) :
    (postLocked l b a s).pending = s.pending ∧ (postLocked l b a s).pins = s.pins ∧ (postLocked l b a s).links = s.links
      ∧ (postLocked l b a s).store = s.store ∧ (postLocked l b a s).ports = s.ports ∧ (postLocked l b a s).plans = s.plans
      ∧ (postLocked l b a s).scheduler = s.scheduler ∧ (postLocked l b a s).channels = s.channels
      ∧ (postLocked l b a s).engine = s.engine ∧ (postLocked l b a s).survey = s.survey := by
  unfold postLocked
  repeat' split
  all_goals simp

/-- A posting of SURVEY_DONE changes the notice list and the counter bank only. -/
@[simp] theorem postSurveyDone_leaves (b s : State) :
    (postSurveyDone b s).pending = s.pending ∧ (postSurveyDone b s).pins = s.pins ∧ (postSurveyDone b s).links = s.links
      ∧ (postSurveyDone b s).store = s.store ∧ (postSurveyDone b s).ports = s.ports ∧ (postSurveyDone b s).plans = s.plans
      ∧ (postSurveyDone b s).scheduler = s.scheduler ∧ (postSurveyDone b s).channels = s.channels
      ∧ (postSurveyDone b s).engine = s.engine ∧ (postSurveyDone b s).survey = s.survey := by
  unfold postSurveyDone
  repeat' split
  all_goals simp

/-- A recorded entry to LOCKED changes the ports only. -/
@[simp] theorem recordLocked_leaves (l : Link) (s : State) :
    (recordLocked l s).pending = s.pending ∧ (recordLocked l s).pins = s.pins ∧ (recordLocked l s).links = s.links
      ∧ (recordLocked l s).store = s.store ∧ (recordLocked l s).plans = s.plans ∧ (recordLocked l s).scheduler = s.scheduler
      ∧ (recordLocked l s).channels = s.channels ∧ (recordLocked l s).engine = s.engine ∧ (recordLocked l s).notices = s.notices
      ∧ (recordLocked l s).bank = s.bank ∧ (recordLocked l s).survey = s.survey := by
  cases l <;> exact ⟨rfl, rfl, rfl, rfl, rfl, rfl, rfl, rfl, rfl, rfl, rfl⟩

/-- Discarding the messages of a tributary changes the channel map and the counter bank only. -/
@[simp] theorem discardFor_leaves (n : Trib) (s : State) :
    (discardFor n s).pending = s.pending ∧ (discardFor n s).pins = s.pins ∧ (discardFor n s).links = s.links
      ∧ (discardFor n s).store = s.store ∧ (discardFor n s).ports = s.ports ∧ (discardFor n s).plans = s.plans
      ∧ (discardFor n s).scheduler = s.scheduler ∧ (discardFor n s).engine = s.engine ∧ (discardFor n s).notices = s.notices
      ∧ (discardFor n s).survey = s.survey := by
  refine ⟨rfl, rfl, rfl, rfl, rfl, rfl, rfl, rfl, rfl, rfl⟩

/-- Discarding every message changes the channel map and the counter bank only. -/
@[simp] theorem discardAll_leaves (s : State) :
    (discardAll s).pending = s.pending ∧ (discardAll s).pins = s.pins ∧ (discardAll s).links = s.links ∧ (discardAll s).store = s.store
      ∧ (discardAll s).ports = s.ports ∧ (discardAll s).plans = s.plans ∧ (discardAll s).scheduler = s.scheduler
      ∧ (discardAll s).engine = s.engine ∧ (discardAll s).notices = s.notices ∧ (discardAll s).survey = s.survey := by
  simp [discardAll, allTribs]

/-- An offer to an uplink queue changes the store, the notice list and the counter bank only. -/
@[simp] theorem offerUp_leaves (n : Trib) (c : Cell) (s : State) :
    (offerUp n c s).pending = s.pending ∧ (offerUp n c s).pins = s.pins ∧ (offerUp n c s).links = s.links
      ∧ (offerUp n c s).ports = s.ports ∧ (offerUp n c s).plans = s.plans ∧ (offerUp n c s).scheduler = s.scheduler
      ∧ (offerUp n c s).channels = s.channels ∧ (offerUp n c s).engine = s.engine ∧ (offerUp n c s).survey = s.survey := by
  unfold offerUp
  repeat' split
  all_goals simp

/-- An offer to a downlink queue changes the store, the notice list and the counter bank only. -/
@[simp] theorem offerDown_leaves (n : Trib) (c : Cell) (s : State) :
    (offerDown n c s).pending = s.pending ∧ (offerDown n c s).pins = s.pins ∧ (offerDown n c s).links = s.links
      ∧ (offerDown n c s).ports = s.ports ∧ (offerDown n c s).plans = s.plans ∧ (offerDown n c s).scheduler = s.scheduler
      ∧ (offerDown n c s).channels = s.channels ∧ (offerDown n c s).engine = s.engine ∧ (offerDown n c s).survey = s.survey := by
  unfold offerDown
  repeat' split
  all_goals simp

/-- The queue part of a cut changes the store and the scheduler only. -/
@[simp] theorem cutOpenQueue_leaves (n : Trib) (s : State) :
    (cutOpenQueue n s).pending = s.pending ∧ (cutOpenQueue n s).pins = s.pins ∧ (cutOpenQueue n s).links = s.links
      ∧ (cutOpenQueue n s).ports = s.ports ∧ (cutOpenQueue n s).plans = s.plans ∧ (cutOpenQueue n s).channels = s.channels
      ∧ (cutOpenQueue n s).engine = s.engine ∧ (cutOpenQueue n s).notices = s.notices ∧ (cutOpenQueue n s).bank = s.bank
      ∧ (cutOpenQueue n s).survey = s.survey := by
  unfold cutOpenQueue
  dsimp only
  repeat' split
  all_goals simp

/-- A cut of an open message changes the store, the scheduler, the notice list and the counter bank only. -/
@[simp] theorem cutOpen_leaves (n : Trib) (cause : CutCause) (s : State) :
    (cutOpen n cause s).pending = s.pending ∧ (cutOpen n cause s).pins = s.pins ∧ (cutOpen n cause s).links = s.links
      ∧ (cutOpen n cause s).ports = s.ports ∧ (cutOpen n cause s).plans = s.plans ∧ (cutOpen n cause s).channels = s.channels
      ∧ (cutOpen n cause s).engine = s.engine ∧ (cutOpen n cause s).survey = s.survey := by
  simp [cutOpen]

/-- The queue part of a full cut changes the store and the scheduler only. -/
@[simp] theorem cutAllQueue_leaves (n : Trib) (s : State) :
    (cutAllQueue n s).pending = s.pending ∧ (cutAllQueue n s).pins = s.pins ∧ (cutAllQueue n s).links = s.links
      ∧ (cutAllQueue n s).ports = s.ports ∧ (cutAllQueue n s).plans = s.plans ∧ (cutAllQueue n s).channels = s.channels
      ∧ (cutAllQueue n s).engine = s.engine ∧ (cutAllQueue n s).notices = s.notices ∧ (cutAllQueue n s).bank = s.bank
      ∧ (cutAllQueue n s).survey = s.survey := by
  unfold cutAllQueue
  dsimp only
  repeat' split
  all_goals simp

/-- A full cut changes the store, the scheduler, the notice list and the counter bank only. -/
@[simp] theorem cutAll_leaves (n : Trib) (cause : CutCause) (s : State) :
    (cutAll n cause s).pending = s.pending ∧ (cutAll n cause s).pins = s.pins ∧ (cutAll n cause s).links = s.links
      ∧ (cutAll n cause s).ports = s.ports ∧ (cutAll n cause s).plans = s.plans ∧ (cutAll n cause s).channels = s.channels
      ∧ (cutAll n cause s).engine = s.engine ∧ (cutAll n cause s).survey = s.survey := by
  unfold cutAll
  dsimp only
  repeat' split
  all_goals simp

/-- A downlink flush changes the store only. -/
@[simp] theorem flushDown_leaves (n : Trib) (s : State) :
    (flushDown n s).pending = s.pending ∧ (flushDown n s).pins = s.pins ∧ (flushDown n s).links = s.links
      ∧ (flushDown n s).ports = s.ports ∧ (flushDown n s).plans = s.plans ∧ (flushDown n s).scheduler = s.scheduler
      ∧ (flushDown n s).channels = s.channels ∧ (flushDown n s).engine = s.engine ∧ (flushDown n s).notices = s.notices
      ∧ (flushDown n s).bank = s.bank ∧ (flushDown n s).survey = s.survey := by
  refine ⟨rfl, rfl, rfl, rfl, rfl, rfl, rfl, rfl, rfl, rfl, rfl⟩

/-- Closing a downlink changes the store, the channel map and the counter bank only. -/
@[simp] theorem closeDownlink_leaves (n : Trib) (s : State) :
    (closeDownlink n s).pending = s.pending ∧ (closeDownlink n s).pins = s.pins ∧ (closeDownlink n s).links = s.links
      ∧ (closeDownlink n s).ports = s.ports ∧ (closeDownlink n s).plans = s.plans ∧ (closeDownlink n s).scheduler = s.scheduler
      ∧ (closeDownlink n s).engine = s.engine ∧ (closeDownlink n s).notices = s.notices ∧ (closeDownlink n s).survey = s.survey := by
  refine ⟨rfl, rfl, rfl, rfl, rfl, rfl, rfl, rfl, rfl⟩

/-- A conversion changes the store, the notice list and the counter bank only. -/
@[simp] theorem writeConversion_leaves (n : Trib) (channel : Channel) (next : Index) (s : State) :
    (writeConversion n channel next s).pending = s.pending ∧ (writeConversion n channel next s).pins = s.pins
      ∧ (writeConversion n channel next s).links = s.links ∧ (writeConversion n channel next s).ports = s.ports
      ∧ (writeConversion n channel next s).plans = s.plans ∧ (writeConversion n channel next s).scheduler = s.scheduler
      ∧ (writeConversion n channel next s).channels = s.channels ∧ (writeConversion n channel next s).engine = s.engine
      ∧ (writeConversion n channel next s).survey = s.survey := by
  unfold writeConversion
  repeat' split
  all_goals simp

/-- The end of a given-up message changes the store, the channel map, the notice list and the counter bank only. -/
@[simp] theorem closeGivenUp_leaves (tag : Tag) (s : State) :
    (closeGivenUp tag s).pending = s.pending ∧ (closeGivenUp tag s).pins = s.pins ∧ (closeGivenUp tag s).links = s.links
      ∧ (closeGivenUp tag s).ports = s.ports ∧ (closeGivenUp tag s).plans = s.plans ∧ (closeGivenUp tag s).scheduler = s.scheduler
      ∧ (closeGivenUp tag s).engine = s.engine ∧ (closeGivenUp tag s).survey = s.survey := by
  unfold closeGivenUp
  repeat' split
  all_goals simp

/-- A downlink message given up changes the channel map and the counter bank only. -/
@[simp] theorem giveUpDown_leaves (tag : Tag) (n : Trib) (channel : Channel) (next : Index) (s : State) :
    (giveUpDown tag n channel next s).pending = s.pending ∧ (giveUpDown tag n channel next s).pins = s.pins
      ∧ (giveUpDown tag n channel next s).links = s.links ∧ (giveUpDown tag n channel next s).store = s.store
      ∧ (giveUpDown tag n channel next s).ports = s.ports ∧ (giveUpDown tag n channel next s).plans = s.plans
      ∧ (giveUpDown tag n channel next s).scheduler = s.scheduler ∧ (giveUpDown tag n channel next s).engine = s.engine
      ∧ (giveUpDown tag n channel next s).notices = s.notices ∧ (giveUpDown tag n channel next s).survey = s.survey := by
  simp [giveUpDown]

/-- The start of a downlink message changes the store, the channel map, the notice list and the counter bank only. -/
@[simp] theorem startDown_leaves (tag : Tag) (c : Cell) (s : State) :
    (startDown tag c s).pending = s.pending ∧ (startDown tag c s).pins = s.pins ∧ (startDown tag c s).links = s.links
      ∧ (startDown tag c s).ports = s.ports ∧ (startDown tag c s).plans = s.plans ∧ (startDown tag c s).scheduler = s.scheduler
      ∧ (startDown tag c s).engine = s.engine ∧ (startDown tag c s).survey = s.survey := by
  unfold startDown
  dsimp only
  repeat' split
  all_goals simp

/-- A downlink message started over another changes the store, the channel map, the notice list and the counter bank only. -/
@[simp] theorem restartDown_leaves (tag : Tag) (c : Cell) (s : State) :
    (restartDown tag c s).pending = s.pending ∧ (restartDown tag c s).pins = s.pins ∧ (restartDown tag c s).links = s.links
      ∧ (restartDown tag c s).ports = s.ports ∧ (restartDown tag c s).plans = s.plans ∧ (restartDown tag c s).scheduler = s.scheduler
      ∧ (restartDown tag c s).engine = s.engine ∧ (restartDown tag c s).survey = s.survey := by
  unfold restartDown
  dsimp only
  repeat' split
  all_goals simp

/-- A malformed cell from the trunk changes the channel map and the counter bank only. -/
@[simp] theorem malformedDown_leaves (c : Cell) (s : State) :
    (malformedDown c s).pending = s.pending ∧ (malformedDown c s).pins = s.pins ∧ (malformedDown c s).links = s.links
      ∧ (malformedDown c s).store = s.store ∧ (malformedDown c s).ports = s.ports ∧ (malformedDown c s).plans = s.plans
      ∧ (malformedDown c s).scheduler = s.scheduler ∧ (malformedDown c s).engine = s.engine ∧ (malformedDown c s).notices = s.notices
      ∧ (malformedDown c s).survey = s.survey := by
  unfold malformedDown
  dsimp only
  repeat' split
  all_goals simp

/-- A duplicate changes the engine and the counter bank only. -/
@[simp] theorem takeDuplicate_leaves (c : TakenCommand) (s : State) :
    (takeDuplicate c s).pending = s.pending ∧ (takeDuplicate c s).pins = s.pins ∧ (takeDuplicate c s).links = s.links
      ∧ (takeDuplicate c s).store = s.store ∧ (takeDuplicate c s).ports = s.ports ∧ (takeDuplicate c s).plans = s.plans
      ∧ (takeDuplicate c s).scheduler = s.scheduler ∧ (takeDuplicate c s).channels = s.channels
      ∧ (takeDuplicate c s).notices = s.notices ∧ (takeDuplicate c s).survey = s.survey := by
  unfold takeDuplicate
  repeat' split
  all_goals simp

/-- A command taken or overrun changes the engine, the notice list and the counter bank only. -/
@[simp] theorem takeCommand_leaves (c : TakenCommand) (s : State) :
    (takeCommand c s).pending = s.pending ∧ (takeCommand c s).pins = s.pins ∧ (takeCommand c s).links = s.links
      ∧ (takeCommand c s).store = s.store ∧ (takeCommand c s).ports = s.ports ∧ (takeCommand c s).plans = s.plans
      ∧ (takeCommand c s).scheduler = s.scheduler ∧ (takeCommand c s).channels = s.channels ∧ (takeCommand c s).survey = s.survey := by
  unfold takeCommand
  repeat' split
  all_goals simp

/-- An arrival on tag 1022 changes the engine, the notice list and the counter bank only. -/
@[simp] theorem managementArrival_leaves (c : Cell) (s : State) :
    (managementArrival c s).pending = s.pending ∧ (managementArrival c s).pins = s.pins ∧ (managementArrival c s).links = s.links
      ∧ (managementArrival c s).store = s.store ∧ (managementArrival c s).ports = s.ports ∧ (managementArrival c s).plans = s.plans
      ∧ (managementArrival c s).scheduler = s.scheduler ∧ (managementArrival c s).channels = s.channels
      ∧ (managementArrival c s).survey = s.survey := by
  unfold managementArrival
  repeat' split
  all_goals simp

/-- The start of an uplink message changes the store, the ports, the notice list and the counter bank only. -/
@[simp] theorem startMessage_leaves (n : Trib) (c : Cell) (s : State) :
    (startMessage n c s).pending = s.pending ∧ (startMessage n c s).pins = s.pins ∧ (startMessage n c s).links = s.links
      ∧ (startMessage n c s).plans = s.plans ∧ (startMessage n c s).scheduler = s.scheduler
      ∧ (startMessage n c s).channels = s.channels ∧ (startMessage n c s).engine = s.engine ∧ (startMessage n c s).survey = s.survey := by
  unfold startMessage
  dsimp only
  repeat' split
  all_goals simp

/-- A message cut at a cell changes the store, the ports, the scheduler, the notice list and the counter bank only. -/
@[simp] theorem giveUpAt_leaves (n : Trib) (cause : CutCause) (c : Cell) (s : State) :
    (giveUpAt n cause c s).pending = s.pending ∧ (giveUpAt n cause c s).pins = s.pins ∧ (giveUpAt n cause c s).links = s.links
      ∧ (giveUpAt n cause c s).plans = s.plans ∧ (giveUpAt n cause c s).channels = s.channels
      ∧ (giveUpAt n cause c s).engine = s.engine ∧ (giveUpAt n cause c s).survey = s.survey := by
  simp [giveUpAt]

/-- A continuation from a tributary changes the store, the ports, the scheduler, the notice list and the counter bank only. -/
@[simp] theorem continueMessage_leaves (n : Trib) (tag : Tag) (channel : Channel) (limit admitted : Nat) (next : Index) (c : Cell) (s : State) :
    (continueMessage n tag channel limit admitted next c s).pending = s.pending
      ∧ (continueMessage n tag channel limit admitted next c s).pins = s.pins
      ∧ (continueMessage n tag channel limit admitted next c s).links = s.links
      ∧ (continueMessage n tag channel limit admitted next c s).plans = s.plans
      ∧ (continueMessage n tag channel limit admitted next c s).channels = s.channels
      ∧ (continueMessage n tag channel limit admitted next c s).engine = s.engine
      ∧ (continueMessage n tag channel limit admitted next c s).survey = s.survey := by
  unfold continueMessage
  repeat' split
  all_goals simp

/-- A malformed cell from a tributary changes the store, the ports, the scheduler, the notice list and the counter bank only. -/
@[simp] theorem malformedUp_leaves (n : Trib) (s : State) :
    (malformedUp n s).pending = s.pending ∧ (malformedUp n s).pins = s.pins ∧ (malformedUp n s).links = s.links
      ∧ (malformedUp n s).plans = s.plans ∧ (malformedUp n s).channels = s.channels ∧ (malformedUp n s).engine = s.engine
      ∧ (malformedUp n s).survey = s.survey := by
  unfold malformedUp
  dsimp only
  repeat' split
  all_goals simp

/-- A cell in IDLE changes the store, the ports, the notice list and the counter bank only. -/
@[simp] theorem ingressIdle_leaves (n : Trib) (c : Cell) (s : State) :
    (ingressIdle n c s).pending = s.pending ∧ (ingressIdle n c s).pins = s.pins ∧ (ingressIdle n c s).links = s.links
      ∧ (ingressIdle n c s).plans = s.plans ∧ (ingressIdle n c s).scheduler = s.scheduler ∧ (ingressIdle n c s).channels = s.channels
      ∧ (ingressIdle n c s).engine = s.engine ∧ (ingressIdle n c s).survey = s.survey := by
  unfold ingressIdle
  repeat' split
  all_goals simp

/-- A cell in OPEN changes the store, the ports, the scheduler, the notice list and the counter bank only. -/
@[simp] theorem ingressOpen_leaves (n : Trib) (tag : Tag) (channel : Channel) (limit admitted : Nat) (next : Index) (c : Cell) (s : State) :
    (ingressOpen n tag channel limit admitted next c s).pending = s.pending
      ∧ (ingressOpen n tag channel limit admitted next c s).pins = s.pins
      ∧ (ingressOpen n tag channel limit admitted next c s).links = s.links
      ∧ (ingressOpen n tag channel limit admitted next c s).plans = s.plans
      ∧ (ingressOpen n tag channel limit admitted next c s).channels = s.channels
      ∧ (ingressOpen n tag channel limit admitted next c s).engine = s.engine
      ∧ (ingressOpen n tag channel limit admitted next c s).survey = s.survey := by
  unfold ingressOpen
  repeat' split
  all_goals simp

/-- A cell in DISCARDING changes the store, the ports, the notice list and the counter bank only. -/
@[simp] theorem ingressDiscarding_leaves (n : Trib) (c : Cell) (s : State) :
    (ingressDiscarding n c s).pending = s.pending ∧ (ingressDiscarding n c s).pins = s.pins ∧ (ingressDiscarding n c s).links = s.links
      ∧ (ingressDiscarding n c s).plans = s.plans ∧ (ingressDiscarding n c s).scheduler = s.scheduler
      ∧ (ingressDiscarding n c s).channels = s.channels ∧ (ingressDiscarding n c s).engine = s.engine
      ∧ (ingressDiscarding n c s).survey = s.survey := by
  unfold ingressDiscarding
  repeat' split
  all_goals simp

/-- An arrival from a tributary changes the store, the ports, the scheduler, the notice list and the counter bank only. -/
@[simp] theorem tribArrival_leaves (n : Trib) (c : Cell) (s : State) :
    (tribArrival n c s).pending = s.pending ∧ (tribArrival n c s).pins = s.pins ∧ (tribArrival n c s).links = s.links
      ∧ (tribArrival n c s).plans = s.plans ∧ (tribArrival n c s).channels = s.channels ∧ (tribArrival n c s).engine = s.engine
      ∧ (tribArrival n c s).survey = s.survey := by
  unfold tribArrival
  repeat' split
  all_goals simp

/-- An ingress record ended changes the store, the ports, the scheduler, the notice list and the counter bank only. -/
@[simp] theorem endIngress_leaves (n : Trib) (s : State) :
    (endIngress n s).pending = s.pending ∧ (endIngress n s).pins = s.pins ∧ (endIngress n s).links = s.links
      ∧ (endIngress n s).plans = s.plans ∧ (endIngress n s).channels = s.channels ∧ (endIngress n s).engine = s.engine
      ∧ (endIngress n s).survey = s.survey := by
  unfold endIngress
  repeat' split
  all_goals simp

/-- The traffic part of a disable changes the store, the ports, the scheduler, the channel map, the notice list and the counter bank only. -/
@[simp] theorem disableTraffic_leaves (n : Trib) (s : State) :
    (disableTraffic n s).pending = s.pending ∧ (disableTraffic n s).pins = s.pins ∧ (disableTraffic n s).links = s.links
      ∧ (disableTraffic n s).plans = s.plans ∧ (disableTraffic n s).engine = s.engine ∧ (disableTraffic n s).survey = s.survey := by
  simp [disableTraffic]

/-- A flush of the uplink side changes the store, the ports, the scheduler, the notice list and the counter bank only. -/
@[simp] theorem flushUplink_leaves (n : Trib) (s : State) :
    (flushUplink n s).pending = s.pending ∧ (flushUplink n s).pins = s.pins ∧ (flushUplink n s).links = s.links
      ∧ (flushUplink n s).plans = s.plans ∧ (flushUplink n s).channels = s.channels ∧ (flushUplink n s).engine = s.engine
      ∧ (flushUplink n s).survey = s.survey := by
  unfold flushUplink
  dsimp only
  repeat' split
  all_goals simp

/-- A lock loss of a port changes the store, the ports, the scheduler, the channel map, the notice list and the counter bank only. -/
@[simp] theorem portLockLost_leaves (turn : Turn) (n : Trib) (s : State) :
    (portLockLost turn n s).pending = s.pending ∧ (portLockLost turn n s).pins = s.pins ∧ (portLockLost turn n s).links = s.links
      ∧ (portLockLost turn n s).plans = s.plans ∧ (portLockLost turn n s).engine = s.engine ∧ (portLockLost turn n s).survey = s.survey := by
  unfold portLockLost postBeside
  dsimp only
  repeat' split
  all_goals simp

/-- Port settings taking effect change the store, the ports, the scheduler, the channel map, the notice list and the counter bank only. -/
@[simp] theorem applyPortEntry_leaves (turn : Turn) (n : Trib) (e : PortEntry) (s : State) :
    (applyPortEntry turn n e s).pending = s.pending ∧ (applyPortEntry turn n e s).pins = s.pins
      ∧ (applyPortEntry turn n e s).links = s.links ∧ (applyPortEntry turn n e s).plans = s.plans
      ∧ (applyPortEntry turn n e s).engine = s.engine ∧ (applyPortEntry turn n e s).survey = s.survey := by
  unfold applyPortEntry postBeside
  dsimp only
  repeat' split
  all_goals simp

/-! ## What each sets -/

/-- The counter bank after a count in an Uplink group. -/
@[simp] theorem countUp_bank (n : Trib) (f : UplinkCounters → UplinkCounters) (s : State) :
    (countUp n f s).bank = { s.bank with up := s.bank.up.set n (f s.bank.up[n]) } := rfl

/-- The counter bank after a count in a Downlink group. -/
@[simp] theorem countDown_bank (n : Trib) (f : DownlinkCounters → DownlinkCounters) (s : State) :
    (countDown n f s).bank = { s.bank with down := s.bank.down.set n (f s.bank.down[n]) } := rfl

/-- The counter bank after a count in the Trunk receive group. -/
@[simp] theorem countTrunk_bank (f : TrunkCounters → TrunkCounters) (s : State) :
    (countTrunk f s).bank = { s.bank with trunk := f s.bank.trunk } := rfl

/-- The counter bank after a count in the Management group. -/
@[simp] theorem countManagement_bank (f : ManagementCounters → ManagementCounters) (s : State) :
    (countManagement f s).bank = { s.bank with management := f s.bank.management } := rfl

/-- The cell store after an uplink queue is replaced. -/
@[simp] theorem setUp_store (n : Trib) (q : UpQueue) (s : State) :
    (setUp n q s).store = { s.store with up := s.store.up.set n q } := rfl

/-- The cell store after a downlink queue is replaced. -/
@[simp] theorem setDown_store (n : Trib) (cells : List Cell) (s : State) :
    (setDown n cells s).store = { s.store with down := s.store.down.set n cells } := rfl

/-- The cell store after buffers are returned. -/
@[simp] theorem freeBuffers_store (k : Nat) (s : State) :
    (freeBuffers k s).store = { s.store with free := s.store.free + k } := rfl

/-- The cell store after a buffer is taken. -/
@[simp] theorem takeBuffer_store (s : State) :
    (takeBuffer s).store = { s.store with free := s.store.free - 1 } := rfl

/-- The scheduler after an abandon entry is placed. -/
@[simp] theorem addAbandon_scheduler (n : Trib) (h : HeadMessage) (s : State) :
    (addAbandon n h s).scheduler =
      { s.scheduler with abandon := s.scheduler.abandon ++ [{ trib := n, tag := h.tag, next := h.next }] } := rfl

/-- The scheduler after a tributary leaves the borrow stack. -/
@[simp] theorem leaveBorrow_scheduler (n : Trib) (s : State) :
    (leaveBorrow n s).scheduler = { s.scheduler with borrow := s.scheduler.borrow.filter fun m => m != n } := rfl

/-- The ports after an ingress record is replaced. -/
@[simp] theorem setIngress_ports (n : Trib) (i : Ingress) (s : State) :
    (setIngress n i s).ports = { s.ports with ingress := s.ports.ingress.set n i } := rfl

/-- The ports after a receiver record is replaced. -/
@[simp] theorem setRxLocked_ports (n : Trib) (b : Bool) (s : State) :
    (setRxLocked n b s).ports = { s.ports with rxLocked := s.ports.rxLocked.set n b } := rfl

/-- The ports after the table is replaced. -/
@[simp] theorem setTable_ports (table : Vector PortEntry 8) (s : State) :
    (setTable table s).ports = { s.ports with table := table } := rfl

/-- The links after a tributary transmitter takes a cell. -/
@[simp] theorem setTribTx_links (n : Trib) (c : Cell) (s : State) :
    (setTribTx n c s).links = { s.links with tribTx := s.links.tribTx.set n (.sending c) } := rfl

/-- The notice list after its records are replaced. -/
@[simp] theorem setRecords_notices (records : List NoticeRecord) (s : State) :
    (setRecords records s).notices = { s.notices with records := records } := rfl

/-- The store after a downlink flush. -/
@[simp] theorem flushDown_store (n : Trib) (s : State) :
    (flushDown n s).store = { s.store with free := s.store.free + s.store.down[n].length, down := s.store.down.set n [] } := rfl

/-- A posting counts in no group but Management. -/
@[simp] theorem post_bank (kind : NoticeKind) (subject detail : Byte) (s : State) :
    (post kind subject detail s).bank.up = s.bank.up ∧ (post kind subject detail s).bank.down = s.bank.down
      ∧ (post kind subject detail s).bank.trunk = s.bank.trunk := by
  unfold post
  repeat' split
  all_goals simp

/-! ## A posting beside other work -/

/-- What each order of a posting and the work beside it gives is what the posting beside the work gives. -/
theorem postBeside_cases {motive : State → Prop} {turn : Turn} {posting work : State → State} {s : State}
    (first : motive (work (posting s))) (last : motive (posting (work s))) : motive (postBeside turn posting work s) := by
  cases turn
  · exact first
  · exact last

/-- A posting beside other work leaves what both leave. -/
theorem postBeside_leaves {α : Type} {field : State → α} {turn : Turn} {posting work : State → State}
    (hp : ∀ s, field (posting s) = field s) (hw : ∀ s, field (work s) = field s) (s : State) :
    field (postBeside turn posting work s) = field s :=
  postBeside_cases (motive := fun t => field t = field s) ((hw _).trans (hp _)) ((hp _).trans (hw _))

/-- A part of the state no posting reaches is, after a posting beside other work, what the work alone leaves it, where that work does not
look at what postings leave. -/
theorem postBeside_eq {α : Type} {field : State → α} {turn : Turn} {posting work : State → State}
    (hp : ∀ s, field (posting s) = field s) {s : State} (hw : field (work (posting s)) = field (work s)) :
    field (postBeside turn posting work s) = field (work s) :=
  postBeside_cases (motive := fun t => field t = field (work s)) hw (hp _)

/-! ## Events while the part runs -/

/-- An event of the running part is taken as it is. -/
@[simp] theorem whileRunning_of_running {s : State} (h : s.pins.hardReset = none) (event : State → State) :
    whileRunning s event = event s := by
  simp [whileRunning, h]

/-- During a hard reset nothing happens. -/
theorem whileRunning_of_reset {s : State} (h : s.pins.hardReset ≠ none) (event : State → State) : whileRunning s event = s := by
  cases hr : s.pins.hardReset with
  | none => exact absurd hr h
  | some cause => simp [whileRunning, hr]

/-- What holds of the state before and of the event's outcome holds of an event of the running part. -/
theorem whileRunning_cases {motive : State → Prop} {s : State} {event : State → State} (same : motive s)
    (ran : s.pins.hardReset = none → motive (event s)) : motive (whileRunning s event) := by
  by_cases h : s.pins.hardReset = none
  · rw [whileRunning_of_running h]
    exact ran h
  · rw [whileRunning_of_reset h]
    exact same

/-! ## Vectors indexed by tributaries and plans -/

/-- A vector of eight read where it was written. -/
@[simp] theorem get_set_same {α : Type} (v : Vector α 8) (n : Trib) (x : α) : (v.set n x)[n] = x := by
  simp

/-- A vector of eight read elsewhere than where it was written. -/
theorem get_set_other {α : Type} (v : Vector α 8) {n m : Trib} (h : m ≠ n) (x : α) : (v.set n x)[m] = v[m] := by
  have : (n : Nat) ≠ (m : Nat) := fun e => h (Fin.ext e.symm)
  simp [this]

/-- A vector of eight read after a write, by cases. -/
theorem get_set {α : Type} (v : Vector α 8) (n m : Trib) (x : α) : (v.set n x)[m] = if m = n then x else v[m] := by
  split
  · next h => subst h; simp
  · next h => exact get_set_other v h x

end Sys2Proof.Laws
end

