-- ==== Sys2Proof/Laws/Channels.lean ====
section
/-! SUPPORT. What the operations on the channel map do: reading after writing, the change of every current part, and that each keeps the
canonical form. -/

namespace Sys2Proof.Laws

set_option Elab.async false

open Sys2Proof.Machine

/-- A canonical map from a bound on lists nothing below it. -/
theorem get_of_wfFrom {m : ChannelMap} : ∀ {low tag : Nat}, ChannelMap.wfFrom low m = true → tag < low → m.get tag = .reset := by
  induction m with
  | nil => intros; rfl
  | cons ke m ih =>
    obtain ⟨k, e⟩ := ke
    intro low tag h hlt
    simp only [ChannelMap.wfFrom, Bool.and_eq_true, decide_eq_true_eq] at h
    have hne : tag ≠ k := by omega
    simp only [ChannelMap.get, hne, if_false]
    exact ih h.2 (by omega)

/-- A canonical map from a bound is one from any lower bound. -/
theorem wfFrom_mono {m : ChannelMap} {low high : Nat} (h : ChannelMap.wfFrom high m = true) (hle : low ≤ high) :
    ChannelMap.wfFrom low m = true := by
  cases m with
  | nil => rfl
  | cons ke m =>
    obtain ⟨k, e⟩ := ke
    simp only [ChannelMap.wfFrom, Bool.and_eq_true, decide_eq_true_eq] at h ⊢
    exact ⟨⟨⟨by omega, h.1.1.2⟩, h.1.2⟩, h.2⟩

/-- An entry put ahead of a canonical rest. -/
theorem wfFrom_cons {m : ChannelMap} {low tag : Nat} {e : ChannelEntry} (hlow : low ≤ tag) (htag : tag < Config.assignableTags)
    (h : ChannelMap.wfFrom (tag + 1) m = true) : ChannelMap.wfFrom low (ChannelMap.cons tag e m) = true := by
  unfold ChannelMap.cons
  split
  · exact wfFrom_mono h (by omega)
  · next hne => simp [ChannelMap.wfFrom, hlow, htag, h, hne]

/-- Reading a map with an entry put ahead. -/
theorem get_cons {m : ChannelMap} {tag : Nat} {e : ChannelEntry} (h : ChannelMap.wfFrom (tag + 1) m = true) (t : Nat) :
    (ChannelMap.cons tag e m).get t = if t = tag then e else m.get t := by
  unfold ChannelMap.cons
  split
  · next he =>
    subst he
    split
    · next ht => subst ht; exact get_of_wfFrom h (by omega)
    · rfl
  · rfl

/-- A write keeps the canonical form. -/
theorem wfFrom_set {m : ChannelMap} {tag : Nat} {e : ChannelEntry} (htag : tag < Config.assignableTags) :
    ∀ {low : Nat}, low ≤ tag → ChannelMap.wfFrom low m = true → ChannelMap.wfFrom low (m.set tag e) = true := by
  induction m with
  | nil => intro low hlow _; exact wfFrom_cons hlow htag rfl
  | cons kd m ih =>
    obtain ⟨k, d⟩ := kd
    intro low hlow h
    have hkd := h
    simp only [ChannelMap.wfFrom, Bool.and_eq_true, decide_eq_true_eq] at h
    unfold ChannelMap.set
    split
    · next hlt => exact wfFrom_cons hlow htag (by simp [ChannelMap.wfFrom, h.1.1.2, h.1.2, h.2]; omega)
    · split
      · next heq => subst heq; exact wfFrom_cons hlow htag h.2
      · next hge hne =>
        have := ih (low := k + 1) (by omega) h.2
        simp [ChannelMap.wfFrom, h.1.1, h.1.2, this]

/-- A write of a canonical map keeps it canonical. -/
theorem wf_set {m : ChannelMap} {tag : Nat} {e : ChannelEntry} (htag : tag < Config.assignableTags) (h : m.wf = true) :
    (m.set tag e).wf = true := wfFrom_set htag (Nat.zero_le _) h

/-- Reading after a write. -/
theorem get_set_from {m : ChannelMap} {tag : Nat} {e : ChannelEntry} (t : Nat) :
    ∀ {low : Nat}, ChannelMap.wfFrom low m = true → (m.set tag e).get t = if t = tag then e else m.get t := by
  induction m with
  | nil => intro low _; exact get_cons rfl t
  | cons kd m ih =>
    obtain ⟨k, d⟩ := kd
    intro low h
    simp only [ChannelMap.wfFrom, Bool.and_eq_true, decide_eq_true_eq] at h
    unfold ChannelMap.set
    split
    · next hlt => exact get_cons (by simp [ChannelMap.wfFrom, h.1.1.2, h.1.2, h.2]; omega) t
    · split
      · next heq =>
        subst heq
        rw [get_cons h.2]
        simp only [ChannelMap.get]
        split <;> simp_all
      · next hge hne =>
        simp only [ChannelMap.get]
        rw [ih h.2]
        split
        · next ht => subst ht; simp [Ne.symm hne]
        · rfl

/-- Reading the entry of a tag after a write of a canonical map. -/
theorem get_set_entry {m : ChannelMap} (h : m.wf = true) (tag t : Nat) (e : ChannelEntry) :
    (m.set tag e).get t = if t = tag then e else m.get t := get_set_from t h

/-- A change of every current part keeps the canonical form. -/
theorem wfFrom_changeCurrent {f : Current → Current} {m : ChannelMap} :
    ∀ {low : Nat}, ChannelMap.wfFrom low m = true → ChannelMap.wfFrom low (m.changeCurrent f) = true := by
  induction m with
  | nil => intros; rfl
  | cons ke m ih =>
    obtain ⟨k, e⟩ := ke
    intro low h
    simp only [ChannelMap.wfFrom, Bool.and_eq_true, decide_eq_true_eq] at h
    exact wfFrom_cons h.1.1.1 h.1.1.2 (ih h.2)

/-- A change of every current part of a canonical map keeps it canonical. -/
theorem wf_changeCurrent {f : Current → Current} {m : ChannelMap} (h : m.wf = true) : (m.changeCurrent f).wf = true :=
  wfFrom_changeCurrent h

/-- Reading an entry after a change of every current part that leaves IDLE alone. -/
theorem get_changeCurrent {f : Current → Current} (hf : f .idle = .idle) {m : ChannelMap} (t : Nat) :
    ∀ {low : Nat}, ChannelMap.wfFrom low m = true →
      (m.changeCurrent f).get t = { m.get t with current := f (m.get t).current } := by
  induction m with
  | nil => intros; simp [ChannelMap.changeCurrent, ChannelMap.get, ChannelEntry.reset, hf]
  | cons ke m ih =>
    obtain ⟨k, e⟩ := ke
    intro low h
    simp only [ChannelMap.wfFrom, Bool.and_eq_true, decide_eq_true_eq] at h
    simp only [ChannelMap.changeCurrent]
    rw [get_cons (wfFrom_changeCurrent h.2)]
    simp only [ChannelMap.get]
    split
    · rfl
    · exact ih h.2

/-- The channel map after a current part is replaced. -/
@[simp] theorem setCurrent_channels (tag : Tag) (c : Current) (s : State) :
    (setCurrent tag c s).channels = s.channels.set tag.toNat { s.channels.get tag.toNat with current := c } := rfl

/-- The channel map after the messages of a tributary are discarded. -/
@[simp] theorem discardFor_channels (n : Trib) (s : State) :
    (discardFor n s).channels = s.channels.changeCurrent fun c => if c.openFor n then c.giveUp else c := rfl

/-- The messages of a tributary discarded: its OPEN entries are given up and no other entry changes (R120). -/
theorem get_discardFor {s : State} (h : s.channels.wf = true) (n : Trib) (t : Nat) :
    ((discardFor n s).channels).get t =
      { s.channels.get t with
        current := if (s.channels.get t).current.openFor n then (s.channels.get t).current.giveUp else (s.channels.get t).current } := by
  rw [discardFor_channels]
  exact get_changeCurrent (by simp [Current.openFor]) t h

end Sys2Proof.Laws
end

