-- ==== Sys2Proof/Laws/Engine.lean ====
section
/-! SUPPORT. What starting and completing a command do, and every way an execution can go (R133, R134). -/

namespace Sys2Proof.Laws

set_option Elab.async false

open Sys2Proof.Machine

/-- A command may start exactly when none is in progress, the response queue has a free entry, and it heads the command queue (R133). -/
theorem startable_eq_some {e : Engine} {c : TakenCommand} {rest : List TakenCommand} :
    startable e = some (c, rest) ↔ e.inProgress = none ∧ e.entriesUsed < Config.responseDepth ∧ e.commands = c :: rest := by
  unfold startable Engine.room
  cases hp : e.inProgress <;> cases hc : e.commands <;> simp

/-- The execution of a command of the kind at the head of the queue, its operands long enough (R133). -/
theorem runCommand_of_ready {k : CommandKind} {work : TakenCommand → State → State} {s : State} {c : TakenCommand}
    {rest : List TakenCommand} (hs : startable s.engine = some (c, rest)) (hk : c.kind = kindCode k)
    (hl : operandsNeeded k c.operands ≤ c.operands.length) :
    runCommand k work s = work c (beginCommand rest s) := by
  simp [runCommand, hs, hk, Nat.not_lt.mpr hl]

/-- The execution of a command of the kind at the head of the queue, its operands too few (R133). -/
theorem runCommand_of_short {k : CommandKind} {work : TakenCommand → State → State} {s : State} {c : TakenCommand}
    {rest : List TakenCommand} (hs : startable s.engine = some (c, rest)) (hk : c.kind = kindCode k)
    (hl : c.operands.length < operandsNeeded k c.operands) :
    runCommand k work s = complete c .length [] (beginCommand rest s) := by
  simp [runCommand, hs, hk, hl]

/-- What holds of the state before, of every answer LENGTH and of every outcome of the command's own work holds of an execution. -/
theorem runCommand_cases {motive : State → Prop} {k : CommandKind} {work : TakenCommand → State → State} {s : State}
    (same : motive s)
    (short : ∀ c rest, startable s.engine = some (c, rest) → motive (complete c .length [] (beginCommand rest s)))
    (ran : ∀ c rest, startable s.engine = some (c, rest) → motive (work c (beginCommand rest s))) :
    motive (runCommand k work s) := by
  unfold runCommand
  split
  · exact same
  · next c rest hs =>
    split
    · exact same
    · split
      · exact short c rest hs
      · exact ran c rest hs

/-- What holds of the state before and of every answer UNKNOWN_KIND holds of the execution of a command of unknown kind. -/
theorem runUnknown_cases {motive : State → Prop} {s : State} (same : motive s)
    (ran : ∀ c rest, startable s.engine = some (c, rest) → motive (complete c .unknownKind [] (beginCommand rest s))) :
    motive (runUnknown s) := by
  unfold runUnknown
  split
  · exact same
  · next c rest hs =>
    split
    · exact same
    · exact ran c rest hs

/-- A change of standing changes only the last taken number's standing. -/
@[simp] theorem setStanding_leaves (e : Engine) (st : Standing) :
    (e.setStanding st).commands = e.commands ∧ (e.setStanding st).inProgress = e.inProgress ∧ (e.setStanding st).placed = e.placed
      ∧ (e.setStanding st).reserved = e.reserved ∧ (e.setStanding st).stored = e.stored := by
  unfold Engine.setStanding
  split <;> simp

/-- The standing after a change of it, when the command at work is the last taken. -/
@[simp] theorem setStanding_lastTaken (e : Engine) (st : Standing) :
    (e.setStanding st).lastTaken = if e.commands = [] then e.lastTaken.map fun p => (p.1, st) else e.lastTaken := by
  unfold Engine.setStanding
  split <;> simp_all

/-- The engine at the start of an execution (R133). -/
@[simp] theorem beginCommand_engine (rest : List TakenCommand) (s : State) :
    (beginCommand rest s).engine.commands = rest ∧ (beginCommand rest s).engine.inProgress = s.engine.inProgress
      ∧ (beginCommand rest s).engine.placed = s.engine.placed ∧ (beginCommand rest s).engine.reserved = true
      ∧ (beginCommand rest s).engine.stored = s.engine.stored
      ∧ (beginCommand rest s).engine.lastTaken =
        if rest = [] then s.engine.lastTaken.map fun p => (p.1, .executing) else s.engine.lastTaken := by
  simp [beginCommand]

/-- The engine after a completion (R134). -/
@[simp] theorem complete_engine (c : TakenCommand) (result : Result) (data : List Byte) (s : State) :
    (complete c result data s).engine.commands = s.engine.commands ∧ (complete c result data s).engine.inProgress = none
      ∧ (complete c result data s).engine.placed =
        s.engine.placed ++ [{ kind := c.kind, seq := c.seq, result := result, repeated := false, data := data }]
      ∧ (complete c result data s).engine.reserved = false
      ∧ (complete c result data s).engine.stored =
        some { kind := c.kind, seq := c.seq, result := result, repeated := false, data := data }
      ∧ (complete c result data s).engine.lastTaken =
        if s.engine.commands = [] then s.engine.lastTaken.map fun p => (p.1, .completed) else s.engine.lastTaken := by
  simp [complete]

end Sys2Proof.Laws
end

