-- ==== Sys2Proof/Laws/Notices.lean ====
section
/-! SUPPORT. What a posting does to the notice list, by case, and that a new record takes a number no record holds (R147 to R151). -/

namespace Sys2Proof.Laws

set_option Elab.async false

open Sys2Proof.Machine

/-- The number counter never stands at 0 after a move (R149). -/
theorem numberAfter_ne_zero (b : Byte) : numberAfter b ≠ 0 := by
  unfold numberAfter
  split
  · decide
  · next h =>
    intro h0
    apply h
    have : b = 0 - 1 := by rw [← h0]; simp
    rw [this]
    decide

/-- A posting whose kind the mask clears is discarded (R147). -/
theorem post_of_masked {kind : NoticeKind} {s : State} (h : s.notices.passes kind = false) (subject detail : Byte) :
    post kind subject detail s = s := by
  simp [post, h]

/-- A posting whose pair has a record changes that record alone (R150). -/
theorem post_of_coalesced {kind : NoticeKind} {subject : Byte} {s : State} (hp : s.notices.passes kind = true)
    (h : s.notices.records.any (NoticeRecord.isFor kind subject) = true) (detail : Byte) :
    post kind subject detail s =
      { s with notices :=
        { s.notices with
          records := changeFirst (NoticeRecord.isFor kind subject) (NoticeRecord.gather detail) s.notices.records } } := by
  simp [post, hp, h]

/-- A posting for a new pair creates a record while fewer than 8 ordinary records are held (R150). -/
theorem post_of_new {kind : NoticeKind} {subject : Byte} {s : State} (hp : s.notices.passes kind = true)
    (h : s.notices.records.any (NoticeRecord.isFor kind subject) = false) (hroom : s.notices.ordinary < Config.noticeDepth)
    (detail : Byte) :
    post kind subject detail s = { s with notices := s.notices.create kind subject detail } := by
  simp only [post, hp, h, hroom, Bool.not_true, Bool.false_eq_true, if_false, if_true]

/-- A posting for a new pair is lost when 8 ordinary records are held (R150, R151). -/
theorem post_of_lost {kind : NoticeKind} {subject : Byte} {s : State} (hp : s.notices.passes kind = true)
    (h : s.notices.records.any (NoticeRecord.isFor kind subject) = false) (hfull : Config.noticeDepth ≤ s.notices.ordinary)
    (detail : Byte) :
    post kind subject detail s = countManagement .bumpLost { s with notices := s.notices.lose kind } := by
  simp only [post, hp, h, Nat.not_lt.mpr hfull, Bool.not_true, Bool.false_eq_true, if_false]

/-- A posting leaves the options as they are (R158). -/
@[simp] theorem post_options (kind : NoticeKind) (subject detail : Byte) (s : State) :
    (post kind subject detail s).notices.mask = s.notices.mask
      ∧ (post kind subject detail s).notices.interval = s.notices.interval := by
  unfold post
  repeat' split
  all_goals (try unfold NoticeList.lose)
  all_goals (try split)
  all_goals simp [NoticeList.create]

/-- A posting as a change of the notice list and the counter bank. -/
theorem post_eq (kind : NoticeKind) (subject detail : Byte) (s : State) :
    post kind subject detail s =
      { s with notices := (post kind subject detail s).notices, bank := (post kind subject detail s).bank } := by
  unfold post
  repeat' split
  all_goals simp [countManagement]

/-- What a posting leaves in the notice list depends on the notice list alone. -/
theorem post_notices_congr {kind : NoticeKind} {subject detail : Byte} {s t : State} (h : t.notices = s.notices) :
    (post kind subject detail t).notices = (post kind subject detail s).notices := by
  unfold post
  simp only [h]
  repeat' split
  all_goals first | rfl | exact h

/-- What a posting leaves in the counter bank depends on the notice list and the counter bank alone. -/
theorem post_bank_congr {kind : NoticeKind} {subject detail : Byte} {s t : State} (h : t.notices = s.notices) (hb : t.bank = s.bank) :
    (post kind subject detail t).bank = (post kind subject detail s).bank := by
  unfold post
  simp only [h]
  repeat' split
  all_goals simp [hb]

/-- A posting where other blocks stand otherwise: it leaves the same notice list and counter bank beside them. -/
theorem post_of_same {kind : NoticeKind} {subject detail : Byte} {s t : State} (h : t.notices = s.notices) (hb : t.bank = s.bank) :
    post kind subject detail t =
      { t with notices := (post kind subject detail s).notices, bank := (post kind subject detail s).bank } := by
  rw [post_eq kind subject detail t, post_notices_congr h, post_bank_congr h hb]

/-- What a posting leaves in the Management group depends on the notice list and that group alone. -/
theorem post_management_congr {kind : NoticeKind} {subject detail : Byte} {s t : State} (h : t.notices = s.notices)
    (hb : t.bank.management = s.bank.management) :
    (post kind subject detail t).bank.management = (post kind subject detail s).bank.management := by
  unfold post
  simp only [h]
  repeat' split
  all_goals simp [hb]

/-- A posting moves no Management counter but *notices lost* (R151). -/
theorem post_management (kind : NoticeKind) (subject detail : Byte) (s : State) :
    (post kind subject detail s).bank.management =
      { s.bank.management with noticesLost := (post kind subject detail s).bank.management.noticesLost } := by
  unfold post
  repeat' split
  all_goals simp [ManagementCounters.bumpLost]

/-- A change of the first record that satisfies a test, where that record is known. -/
theorem changeFirst_split {test : NoticeRecord → Bool} {f : NoticeRecord → NoticeRecord} {before after : List NoticeRecord}
    {r : NoticeRecord} (hb : ∀ x ∈ before, test x = false) (hr : test r = true) :
    changeFirst test f (before ++ r :: after) = before ++ f r :: after := by
  induction before with
  | nil => simp [changeFirst, hr]
  | cons x xs ih => simp [changeFirst, hb x (by simp), ih (fun y hy => hb y (by simp [hy]))]

/-- A change of the first record that satisfies a test keeps every number when the change does. -/
theorem changeFirst_map {α : Type} {test : NoticeRecord → Bool} {f : NoticeRecord → NoticeRecord} {g : NoticeRecord → α}
    (hf : ∀ r, g (f r) = g r) (records : List NoticeRecord) : (changeFirst test f records).map g = records.map g := by
  induction records with
  | nil => rfl
  | cons r rs ih =>
    unfold changeFirst
    split
    · simp [hf]
    · simp [ih]

/-- The first number from `b` on, over the values that `k` moves of the counter reach. -/
def movedBy : Nat → Byte → Byte
  | 0, b => b
  | k + 1, b => movedBy k (numberAfter b)

/-- Moves of the counter from a number in 1..255, as arithmetic on it. -/
theorem movedBy_toNat (k : Nat) : ∀ {b : Byte}, b ≠ 0 → (movedBy k b).toNat = (b.toNat - 1 + k) % 255 + 1 := by
  induction k with
  | zero =>
    intro b hb
    have h1 : b.toNat ≠ 0 := fun h => hb (BitVec.eq_of_toNat_eq (by simpa using h))
    have h2 := b.isLt
    simp only [movedBy, Nat.add_zero]
    omega
  | succ k ih =>
    intro b hb
    have h1 : b.toNat ≠ 0 := fun h => hb (BitVec.eq_of_toNat_eq (by simpa using h))
    have h2 := b.isLt
    simp only [movedBy]
    rw [ih (numberAfter_ne_zero b)]
    unfold numberAfter
    split
    · next h => subst h; simp; omega
    · next h =>
      have h3 : b.toNat ≠ 255 := fun e => h (BitVec.eq_of_toNat_eq (by simpa using e))
      have h4 : (b + 1).toNat = b.toNat + 1 := by
        rw [BitVec.toNat_add]
        simp
        omega
      rw [h4]
      omega

/-- The search for a fresh number ends at the first free value it meets, or has met only numbers in use. -/
theorem freshNumber_spec (records : List NoticeRecord) (fuel : Nat) : ∀ {b : Byte}, b ≠ 0 →
    ((∀ r ∈ records, r.number ≠ freshNumber records fuel b) ∧ freshNumber records fuel b ≠ 0)
      ∨ ∀ k < fuel, ∃ r ∈ records, r.number = movedBy k b := by
  induction fuel with
  | zero => intro b _; right; intro k hk; omega
  | succ fuel ih =>
    intro b hb
    unfold freshNumber
    split
    · next h =>
      have hany : ∃ r ∈ records, r.number = b := by
        rcases h with h | h
        · exact absurd h hb
        · simpa using h
      rcases ih (numberAfter_ne_zero b) with h' | h'
      · left; exact h'
      · right
        intro k hk
        cases k with
        | zero => exact hany
        | succ k => exact h' k (by omega)
    · next h =>
      left
      push Not at h
      refine ⟨?_, hb⟩
      intro r hr hrb
      apply h.2
      simp only [List.any_eq_true, beq_iff_eq]
      exact ⟨r, hr, hrb⟩

/-- A new record takes the counter's value or a later one, past values that records hold alone (R149). -/
theorem freshNumber_eq_movedBy (records : List NoticeRecord) (fuel : Nat) : ∀ {b : Byte}, b ≠ 0 →
    ∃ passed, freshNumber records fuel b = movedBy passed b ∧ ∀ k < passed, ∃ r ∈ records, r.number = movedBy k b := by
  induction fuel with
  | zero => intro b _; exact ⟨0, rfl, fun k hk => absurd hk (Nat.not_lt_zero k)⟩
  | succ fuel ih =>
    intro b hb
    unfold freshNumber
    split
    · next h =>
      have hany : ∃ r ∈ records, r.number = b := by
        rcases h with h | h
        · exact absurd h hb
        · simpa using h
      obtain ⟨passed, he, hp⟩ := ih (numberAfter_ne_zero b)
      refine ⟨passed + 1, he, fun k hk => ?_⟩
      cases k with
      | zero => exact hany
      | succ k => exact hp k (by omega)
    · exact ⟨0, rfl, fun k hk => absurd hk (Nat.not_lt_zero k)⟩

/-- With fewer than 255 records, a new record takes a number in 1..255 that no record holds (R149). -/
theorem freshNumber_fresh {records : List NoticeRecord} (h : records.length < 255) {b : Byte} (hb : b ≠ 0) :
    (∀ r ∈ records, r.number ≠ freshNumber records 255 b) ∧ freshNumber records 255 b ≠ 0 := by
  rcases freshNumber_spec records 255 hb with hs | hs
  · exact hs
  · exfalso
    have hsub : (Finset.range 255).image (fun k => (movedBy k b).toNat) ⊆ (records.map fun r => r.number.toNat).toFinset := by
      intro x hx
      obtain ⟨k, hk, rfl⟩ := Finset.mem_image.mp hx
      obtain ⟨r, hr, hrk⟩ := hs k (Finset.mem_range.mp hk)
      simp only [List.mem_toFinset, List.mem_map]
      exact ⟨r, hr, by rw [hrk]⟩
    have hcard := Finset.card_le_card hsub
    rw [Finset.card_image_of_injOn] at hcard
    · have := List.toFinset_card_le (records.map fun r => r.number.toNat)
      simp only [Finset.card_range, List.length_map] at hcard this
      omega
    · intro i hi j hj hij
      simp only [Finset.coe_range, Set.mem_Iio] at hi hj
      simp only [movedBy_toNat _ hb] at hij
      have := b.isLt
      omega

end Sys2Proof.Laws
end

