-- ==== Sys2Proof/Laws/PerInstr.lean ====
section
/-! SUPPORT. A law of every step as a term, constructor by constructor: a well-formed step that carries received bytes carries as many as its
header test reads. -/

namespace Sys2Proof.Laws.CarriedBytes

set_option Elab.async false

/-- The received bytes a step carries, with how many its header test reads (R1, R8 to R10). -/
def carried : Instr → Option (List Byte × Nat)
  | .powerOn => none
  | .resetN => none
  | .hardResetEnd => none
  | .signalLoss _ _ => none
  | .signalReturn _ => none
  | .seekHeaderTest _ bytes => some (bytes, 4)
  | .confirmHeaderTest _ bytes _ => some (bytes, 36)
  | .lockedHeaderTest _ bytes _ _ => some (bytes, 36)
  | .slot => none
  | .cycleBoundary _ => none
  | .planReverted => none
  | .noticeRepeatExpiry => none
  | .surveyDone => none
  | .tributaryCellTime _ => none
  | .echo => none
  | .identify => none
  | .readStatus => none
  | .restart => none
  | .unknownKind => none
  | .selectEditPlan => none
  | .writeSlots => none
  | .setCycleLength => none
  | .writeTributaryEntry => none
  | .setPlanOptions => none
  | .copyPlan => none
  | .readSlots => none
  | .readTributaryEntry => none
  | .readPlanOptions => none
  | .switchPlan => none
  | .confirmPlan => none
  | .writePort _ => none
  | .readPort => none
  | .flushPort => none
  | .writeChannels => none
  | .readChannel => none
  | .readCounters => none
  | .clearCounters => none
  | .startSurvey => none
  | .stopSurvey => none
  | .readSurvey => none
  | .ackNotice => none
  | .setNoticeOptions => none

/-- A well-formed step carries as many bytes as its test reads. -/
def Statement (i : Instr) : Prop := i.wf = true → ∀ bytes width, carried i = some (bytes, width) → bytes.length = width

theorem powerOn : Statement (.powerOn) := by
  intro _ b w hb
  exact absurd hb (by simp [carried])

theorem resetN : Statement (.resetN) := by
  intro _ b w hb
  exact absurd hb (by simp [carried])

theorem hardResetEnd : Statement (.hardResetEnd) := by
  intro _ b w hb
  exact absurd hb (by simp [carried])

theorem signalLoss (l : Link) (turn : Turn) : Statement (.signalLoss l turn) := by
  intro _ b w hb
  exact absurd hb (by simp [carried])

theorem signalReturn (l : Link) : Statement (.signalReturn l) := by
  intro _ b w hb
  exact absurd hb (by simp [carried])

theorem seekHeaderTest (l : Link) (bytes : List Byte) : Statement (.seekHeaderTest l bytes) := by
  intro h b w hb
  simp only [carried, Option.some.injEq, Prod.mk.injEq] at hb
  obtain ⟨rfl, rfl⟩ := hb
  simpa [Instr.wf, seekBytesOk, cellBytesOk, Config.cellBytes] using h

theorem confirmHeaderTest (l : Link) (bytes : List Byte) (turn : Turn) : Statement (.confirmHeaderTest l bytes turn) := by
  intro h b w hb
  simp only [carried, Option.some.injEq, Prod.mk.injEq] at hb
  obtain ⟨rfl, rfl⟩ := hb
  simpa [Instr.wf, seekBytesOk, cellBytesOk, Config.cellBytes] using h

theorem lockedHeaderTest (l : Link) (bytes : List Byte) (between : List StoreEvent) (turn : Turn) :
    Statement (.lockedHeaderTest l bytes between turn) := by
  intro h b w hb
  simp only [carried, Option.some.injEq, Prod.mk.injEq] at hb
  obtain ⟨rfl, rfl⟩ := hb
  simp only [Instr.wf, Bool.and_eq_true, cellBytesOk, Config.cellBytes, beq_iff_eq] at h
  exact h.1

theorem slot : Statement (.slot) := by
  intro _ b w hb
  exact absurd hb (by simp [carried])

theorem cycleBoundary (order : BoundaryOrder) : Statement (.cycleBoundary order) := by
  intro _ b w hb
  exact absurd hb (by simp [carried])

theorem planReverted : Statement (.planReverted) := by
  intro _ b w hb
  exact absurd hb (by simp [carried])

theorem noticeRepeatExpiry : Statement (.noticeRepeatExpiry) := by
  intro _ b w hb
  exact absurd hb (by simp [carried])

theorem surveyDone : Statement (.surveyDone) := by
  intro _ b w hb
  exact absurd hb (by simp [carried])

theorem tributaryCellTime (n : Trib) : Statement (.tributaryCellTime n) := by
  intro _ b w hb
  exact absurd hb (by simp [carried])

theorem echo : Statement (.echo) := by
  intro _ b w hb
  exact absurd hb (by simp [carried])

theorem identify : Statement (.identify) := by
  intro _ b w hb
  exact absurd hb (by simp [carried])

theorem readStatus : Statement (.readStatus) := by
  intro _ b w hb
  exact absurd hb (by simp [carried])

theorem restart : Statement (.restart) := by
  intro _ b w hb
  exact absurd hb (by simp [carried])

theorem unknownKind : Statement (.unknownKind) := by
  intro _ b w hb
  exact absurd hb (by simp [carried])

theorem selectEditPlan : Statement (.selectEditPlan) := by
  intro _ b w hb
  exact absurd hb (by simp [carried])

theorem writeSlots : Statement (.writeSlots) := by
  intro _ b w hb
  exact absurd hb (by simp [carried])

theorem setCycleLength : Statement (.setCycleLength) := by
  intro _ b w hb
  exact absurd hb (by simp [carried])

theorem writeTributaryEntry : Statement (.writeTributaryEntry) := by
  intro _ b w hb
  exact absurd hb (by simp [carried])

theorem setPlanOptions : Statement (.setPlanOptions) := by
  intro _ b w hb
  exact absurd hb (by simp [carried])

theorem copyPlan : Statement (.copyPlan) := by
  intro _ b w hb
  exact absurd hb (by simp [carried])

theorem readSlots : Statement (.readSlots) := by
  intro _ b w hb
  exact absurd hb (by simp [carried])

theorem readTributaryEntry : Statement (.readTributaryEntry) := by
  intro _ b w hb
  exact absurd hb (by simp [carried])

theorem readPlanOptions : Statement (.readPlanOptions) := by
  intro _ b w hb
  exact absurd hb (by simp [carried])

theorem switchPlan : Statement (.switchPlan) := by
  intro _ b w hb
  exact absurd hb (by simp [carried])

theorem confirmPlan : Statement (.confirmPlan) := by
  intro _ b w hb
  exact absurd hb (by simp [carried])

theorem writePort (turn : Turn) : Statement (.writePort turn) := by
  intro _ b w hb
  exact absurd hb (by simp [carried])

theorem readPort : Statement (.readPort) := by
  intro _ b w hb
  exact absurd hb (by simp [carried])

theorem flushPort : Statement (.flushPort) := by
  intro _ b w hb
  exact absurd hb (by simp [carried])

theorem writeChannels : Statement (.writeChannels) := by
  intro _ b w hb
  exact absurd hb (by simp [carried])

theorem readChannel : Statement (.readChannel) := by
  intro _ b w hb
  exact absurd hb (by simp [carried])

theorem readCounters : Statement (.readCounters) := by
  intro _ b w hb
  exact absurd hb (by simp [carried])

theorem clearCounters : Statement (.clearCounters) := by
  intro _ b w hb
  exact absurd hb (by simp [carried])

theorem startSurvey : Statement (.startSurvey) := by
  intro _ b w hb
  exact absurd hb (by simp [carried])

theorem stopSurvey : Statement (.stopSurvey) := by
  intro _ b w hb
  exact absurd hb (by simp [carried])

theorem readSurvey : Statement (.readSurvey) := by
  intro _ b w hb
  exact absurd hb (by simp [carried])

theorem ackNotice : Statement (.ackNotice) := by
  intro _ b w hb
  exact absurd hb (by simp [carried])

theorem setNoticeOptions : Statement (.setNoticeOptions) := by
  intro _ b w hb
  exact absurd hb (by simp [carried])

end Sys2Proof.Laws.CarriedBytes
end

