-- ==== Sys2Proof/Laws/Store.lean ====
section
/-! SUPPORT. What the operations on the cell store do: the judgement of an offer, offers, takes and cuts. -/

namespace Sys2Proof.Laws

set_option Elab.async false

open Sys2Proof.Machine

/-- When an offer is admitted (R20). -/
theorem judgeOffer_admitted {length floor ceiling free reserve : Nat} :
    judgeOffer length floor ceiling free reserve = .admitted ↔ length < ceiling ∧ (length < floor ∨ reserve < free) := by
  unfold judgeOffer
  split
  · simp; omega
  · split <;> simp_all

/-- When an offer is refused for its ceiling (R21). -/
theorem judgeOffer_queueFull {length floor ceiling free reserve : Nat} :
    judgeOffer length floor ceiling free reserve = .queueFull ↔ ceiling ≤ length := by
  unfold judgeOffer
  split
  · simp_all
  · split <;> simp_all

/-- When an offer is refused for want of a buffer (R21). -/
theorem judgeOffer_noBuffer {length floor ceiling free reserve : Nat} :
    judgeOffer length floor ceiling free reserve = .noBuffer ↔ length < ceiling ∧ floor ≤ length ∧ free ≤ reserve := by
  unfold judgeOffer
  split
  · simp; omega
  · split
    · simp; omega
    · simp; omega

/-- The store after an offer to Un that is admitted (R20). -/
theorem offerUp_store_of_admitted {n : Trib} {c : Cell} {s : State} (h : judgeUp n s = .admitted) :
    (offerUp n c s).store = { s.store with free := s.store.free - 1, up := s.store.up.set n (s.store.up[n].push c) } := by
  simp [offerUp, h]

/-- The store after an offer to Un that is refused (R21). -/
theorem offerUp_store_of_refused {n : Trib} {c : Cell} {s : State} (h : judgeUp n s ≠ .admitted) :
    (offerUp n c s).store = s.store := by
  unfold offerUp
  split <;> simp_all

/-- The store after an offer to Dn that is admitted (R20). -/
theorem offerDown_store_of_admitted {n : Trib} {c : Cell} {s : State} (h : judgeDown n s = .admitted) :
    (offerDown n c s).store = { s.store with free := s.store.free - 1, down := s.store.down.set n (s.store.down[n] ++ [c]) } := by
  simp [offerDown, h]

/-- The store after an offer to Dn that is refused (R21). -/
theorem offerDown_store_of_refused {n : Trib} {c : Cell} {s : State} (h : judgeDown n s ≠ .admitted) :
    (offerDown n c s).store = s.store := by
  unfold offerDown
  split <;> simp_all

/-- A take of Un takes its head cell, if it has one, and changes the store only (R23). -/
theorem takeUp_eq_some {n : Trib} {s t : State} {c : Cell} (h : takeUp n s = some (c, t)) :
    ∃ rest, s.store.up[n].cells = c :: rest
      ∧ t = { s with store := { s.store with free := s.store.free + 1, up := s.store.up.set n (s.store.up[n].afterTake c rest) } } := by
  unfold takeUp at h
  split at h
  · exact absurd h (by simp)
  · next c' rest hc =>
    simp only [Option.some.injEq, Prod.mk.injEq] at h
    obtain ⟨rfl, rfl⟩ := h
    exact ⟨rest, hc, rfl⟩

/-- A take of Un finds nothing exactly when it is empty (R23). -/
theorem takeUp_eq_none {n : Trib} {s : State} : takeUp n s = none ↔ s.store.up[n].cells = [] := by
  unfold takeUp
  split <;> simp_all

/-- A take of Dn takes its head cell, if it has one (R24). -/
theorem takeDown_eq_some {n : Trib} {s t : State} {c : Cell} (h : takeDown n s = some (c, t)) :
    ∃ rest, s.store.down[n] = c :: rest ∧ t = countDown n .bumpSent (freeBuffers 1 (setDown n rest s)) := by
  unfold takeDown at h
  split at h
  · exact absurd h (by simp)
  · next c' rest hc =>
    simp only [Option.some.injEq, Prod.mk.injEq] at h
    obtain ⟨rfl, rfl⟩ := h
    exact ⟨rest, hc, rfl⟩

/-- The cells kept by a cut of the open message are a first part of the queue (R27). -/
theorem completePart_append (cells : List Cell) : ∃ tail, completePart cells ++ tail = cells ∧ ∀ c ∈ tail, c.isEnd = false := by
  refine ⟨(cells.reverse.takeWhile fun c => !c.isEnd).reverse, ?_, ?_⟩
  · unfold completePart
    rw [← List.reverse_append, List.takeWhile_append_dropWhile, List.reverse_reverse]
  · intro c hc
    have := List.mem_takeWhile_imp (List.mem_reverse.mp hc)
    simpa using this

/-- A cut of the open message keeps at most what was queued (R27). -/
theorem completePart_length_le (cells : List Cell) : (completePart cells).length ≤ cells.length := by
  obtain ⟨tail, h, _⟩ := completePart_append cells
  calc (completePart cells).length ≤ (completePart cells ++ tail).length := by simp
    _ = cells.length := by rw [h]

/-- A cut of the open message keeps every queued end cell (R27). -/
theorem countEnds_completePart (cells : List Cell) : countEnds (completePart cells) = countEnds cells := by
  obtain ⟨tail, h, ht⟩ := completePart_append cells
  conv_rhs => rw [← h]
  have : (tail.filter Cell.isEnd) = [] := by
    rw [List.filter_eq_nil_iff]
    intro c hc
    simp [ht c hc]
  simp [countEnds, this]

/-- What a cut of the open message keeps ends with an end cell (R27). -/
theorem isEnd_of_getLast?_completePart {cells : List Cell} {c : Cell} (h : (completePart cells).getLast? = some c) : c.isEnd = true := by
  unfold completePart at h
  rw [List.getLast?_reverse] at h
  have := List.head?_dropWhile_not (fun c : Cell => !c.isEnd) cells.reverse
  rw [h] at this
  simpa using this

/-- A queue keeps all its cells at a cut of the open message exactly when it is empty or its newest cell is an end cell (R27). -/
theorem completePart_length_lt_iff (cells : List Cell) :
    (completePart cells).length < cells.length ↔ ∃ c, cells.getLast? = some c ∧ c.isEnd = false := by
  unfold completePart
  rw [← List.head?_reverse, List.length_reverse, ← List.length_reverse (as := cells)]
  cases cells.reverse with
  | nil => simp
  | cons c cs =>
    cases hc : c.isEnd
    · have := (List.dropWhile_sublist (fun c : Cell => !c.isEnd) (l := cs)).length_le
      simp [hc]
      omega
    · simp [hc]

/-- The messages a cut of all of Un ends: one for each queued end cell, one for an open tail, and one for a started head with no cell left
(R28). -/
theorem messagesEnded_eq (q : UpQueue) :
    messagesEnded q =
      countEnds q.cells
        + match q.cells.getLast? with
          | some c => if c.isEnd then 0 else 1
          | none => if q.head.isSome then 1 else 0 := by
  unfold messagesEnded messagesIn
  cases h : q.cells.getLast? with
  | none =>
    have hq : q.cells = [] := by simpa using h
    simp [hq, countEnds]
  | some c =>
    have hq : q.cells ≠ [] := by
      intro e
      simp [e] at h
    have hlt := completePart_length_lt_iff q.cells
    rw [h] at hlt
    cases hc : c.isEnd <;> simp_all

/-- The store after a cut of the open message: its cells go, and its bookkeeping if it had started with nothing complete ahead (R27). -/
theorem cutOpen_store (n : Trib) (cause : CutCause) (s : State) :
    (cutOpen n cause s).store =
      { s.store with
        free := s.store.free + (s.store.up[n].cells.length - (completePart s.store.up[n].cells).length)
        up := s.store.up.set n
          { cells := completePart s.store.up[n].cells
            complete := s.store.up[n].complete
            head := if s.store.up[n].complete = 0 then none else s.store.up[n].head } } := by
  unfold cutOpen cutOpenQueue
  dsimp only
  split
  · split <;> simp_all
  · simp_all

/-- The scheduler after a cut of the open message: an abandon entry more when it had started with nothing complete ahead (R27, R90). -/
theorem cutOpen_scheduler (n : Trib) (cause : CutCause) (s : State) :
    (cutOpen n cause s).scheduler =
      { s.scheduler with
        abandon := s.scheduler.abandon
          ++ (if s.store.up[n].complete = 0 then s.store.up[n].head.map fun h => { trib := n, tag := h.tag, next := h.next }
              else none).toList } := by
  unfold cutOpen cutOpenQueue
  dsimp only
  split
  · split <;> simp_all
  · simp_all

/-- The store after a cut of all of Un (R28). -/
theorem cutAll_store (n : Trib) (cause : CutCause) (s : State) :
    (cutAll n cause s).store =
      { s.store with free := s.store.free + s.store.up[n].cells.length, up := s.store.up.set n .empty } := by
  unfold cutAll cutAllQueue
  dsimp only
  repeat' split
  all_goals simp

/-- The scheduler after a cut of all of Un: Tn off the borrow stack, and an abandon entry more when its head message had started (R28). -/
theorem cutAll_scheduler (n : Trib) (cause : CutCause) (s : State) :
    (cutAll n cause s).scheduler =
      { s.scheduler with
        borrow := s.scheduler.borrow.filter fun m => m != n
        abandon := s.scheduler.abandon
          ++ (s.store.up[n].head.map fun h => { trib := n, tag := h.tag, next := h.next }).toList } := by
  unfold cutAll cutAllQueue
  dsimp only
  split <;> split
  all_goals simp_all

end Sys2Proof.Laws
end

