-- ==== Sys2Proof/Laws/Scheduler.lean ====
section
/-! SUPPORT. What a boundary does at each block and what a slot is when no boundary is in delivery. -/

namespace Sys2Proof.Laws

set_option Elab.async false

open Sys2Proof.Machine

/-- A boundary due set false where it is false already is the same. -/
theorem due_survey_false {d : BoundaryDue} (h : d.survey = false) : { d with survey := false } = d := by
  cases d
  simp_all

/-- A boundary due set false where it is false already is the same. -/
theorem due_notices_false {d : BoundaryDue} (h : d.notices = false) : { d with notices := false } = d := by
  cases d
  simp_all

/-- A boundary due set false where it is false already is the same. -/
theorem due_plan_false {d : BoundaryDue} (h : d.plan = false) : { d with plan := false } = d := by
  cases d
  simp_all

/-- The survey's count of a boundary reaches the survey and its own due flag (R171). -/
theorem surveyCountsBoundary_eq (s : State) :
    surveyCountsBoundary s =
      { s with
        survey := if s.scheduler.due.survey then s.survey.afterBoundary else s.survey
        scheduler := { s.scheduler with due := { s.scheduler.due with survey := false } } } := by
  unfold surveyCountsBoundary
  cases hd : s.scheduler.due.survey <;> simp [due_survey_false, hd]

/-- A survey that has taken the boundary takes nothing more. -/
theorem surveyTakesBoundary_of_taken {s : State} (h : s.scheduler.due.survey = false) : surveyTakesBoundary s = s := by
  simp [surveyTakesBoundary, surveyCountsBoundary, postSurveyDone, h]

/-- The survey's taking of a boundary reaches the survey, the notice list, the counter bank and its own due flag (R171). -/
theorem surveyTakesBoundary_leaves (s : State) :
    (surveyTakesBoundary s).pending = s.pending ∧ (surveyTakesBoundary s).pins = s.pins ∧ (surveyTakesBoundary s).links = s.links
      ∧ (surveyTakesBoundary s).store = s.store ∧ (surveyTakesBoundary s).ports = s.ports ∧ (surveyTakesBoundary s).plans = s.plans
      ∧ (surveyTakesBoundary s).channels = s.channels ∧ (surveyTakesBoundary s).engine = s.engine
      ∧ (surveyTakesBoundary s).bank.up = s.bank.up ∧ (surveyTakesBoundary s).bank.down = s.bank.down
      ∧ (surveyTakesBoundary s).bank.trunk = s.bank.trunk
      ∧ (surveyTakesBoundary s).scheduler = { s.scheduler with due := { s.scheduler.due with survey := false } } := by
  simp only [surveyTakesBoundary, surveyCountsBoundary_eq, postSurveyDone]
  split <;> simp

/-- The survey after its taking of a boundary (R171). -/
theorem surveyTakesBoundary_survey {s : State} (h : s.scheduler.due.survey = true) :
    (surveyTakesBoundary s).survey = s.survey.afterBoundary := by
  simp [surveyTakesBoundary, surveyCountsBoundary_eq, h]

/-- The notice list is touched by the survey's taking of a boundary only when a window completes (R171). -/
theorem surveyTakesBoundary_notices {s : State} (h : s.survey.completes = false) :
    (surveyTakesBoundary s).notices = s.notices ∧ (surveyTakesBoundary s).bank = s.bank := by
  simp [surveyTakesBoundary, surveyCountsBoundary_eq, postSurveyDone, h]

/-- The notice list's taking of a boundary reaches its records and its own due flag (R155). -/
theorem noticesTakeBoundary_leaves (s : State) :
    (noticesTakeBoundary s).pending = s.pending ∧ (noticesTakeBoundary s).pins = s.pins ∧ (noticesTakeBoundary s).links = s.links
      ∧ (noticesTakeBoundary s).store = s.store ∧ (noticesTakeBoundary s).ports = s.ports ∧ (noticesTakeBoundary s).plans = s.plans
      ∧ (noticesTakeBoundary s).channels = s.channels ∧ (noticesTakeBoundary s).engine = s.engine
      ∧ (noticesTakeBoundary s).bank = s.bank ∧ (noticesTakeBoundary s).survey = s.survey
      ∧ (noticesTakeBoundary s).scheduler = { s.scheduler with due := { s.scheduler.due with notices := false } } := by
  unfold noticesTakeBoundary
  cases hd : s.scheduler.due.notices <;> simp [due_notices_false, hd]

/-- The plan store's taking of a boundary reaches the plans, the notice list, the counter bank, the survey, the engine and its own due flag
(R73 to R75). -/
theorem plansTakeBoundary_leaves (s : State) :
    (plansTakeBoundary s).pending = s.pending ∧ (plansTakeBoundary s).pins = s.pins ∧ (plansTakeBoundary s).links = s.links
      ∧ (plansTakeBoundary s).store = s.store ∧ (plansTakeBoundary s).ports = s.ports
      ∧ (plansTakeBoundary s).channels = s.channels ∧ (plansTakeBoundary s).bank.up = s.bank.up
      ∧ (plansTakeBoundary s).bank.down = s.bank.down ∧ (plansTakeBoundary s).bank.trunk = s.bank.trunk
      ∧ (plansTakeBoundary s).scheduler = { s.scheduler with due := { s.scheduler.due with plan := false } } := by
  unfold plansTakeBoundary
  cases hd : s.scheduler.due.plan
  · simp [due_plan_false hd]
  · simp only [if_true]
    cases hs : s.plans.switch with
    | steady => simp
    | pending target mode =>
      simp only [switchPlans]
      cases hp : s.engine.inProgress <;> simp
    | trial remaining fallback =>
      cases hr : s.plans.reverts <;> simp [revertPlans]

/-- In STEADY the plan store's taking of a boundary changes only its own due flag. -/
theorem plansTakeBoundary_of_steady {s : State} (h : s.plans.switch = .steady) :
    plansTakeBoundary s = { s with scheduler := { s.scheduler with due := { s.scheduler.due with plan := false } } } := by
  unfold plansTakeBoundary
  cases hd : s.scheduler.due.plan
  · simp [due_plan_false hd]
  · simp [h]

/-- With no boundary in delivery a notice list has nothing to settle before a slot. -/
theorem settleNotices_of_none {s : State} (h : s.scheduler.due.notices = false) : settleNotices s = s := by
  unfold settleNotices noticesTakeBoundary
  simp [h]

/-- A slot with no boundary in delivery: its owner's decision, carried (R83). -/
theorem slotEvent_of_none {s : State} (h : s.scheduler.due = .none) :
    slotEvent s =
      carrySlot s.plans.running.length (decideSlot (s.plans.running.owner s.scheduler.position) s) := by
  have hs : s.scheduler.due.scheduler = false := by rw [h]; rfl
  have hn : s.scheduler.due.notices = false := by rw [h]; rfl
  simp only [slotEvent, hs, Bool.false_eq_true, if_false, settleNotices_of_none hn]

/-- A slot carried once the survey has taken every boundary: the cell goes to the trunk transmitter, the survey is told, and the position
moves on or the boundary becomes due (R81, R83, R103). -/
theorem carrySlot_of_taken {d : Decision} (h : d.state.scheduler.due.survey = false) (length : Nat) :
    carrySlot length d =
      { d.state with
        links := { d.state.links with trunkTx := .sending d.cell }
        survey := if d.state.survey.state = .running then d.state.survey.tally d.kind else d.state.survey
        scheduler :=
          if d.state.scheduler.position + 1 < length then { d.state.scheduler with position := d.state.scheduler.position + 1 }
          else { d.state.scheduler with due := { scheduler := true, plan := true, notices := true, survey := true } } } := by
  unfold carrySlot
  rw [surveyTakesBoundary_of_taken (by exact h)]
  unfold advanceSlot reportSlot
  split <;> split <;> simp_all

/-- A boundary not yet delivered, in the one form all three orders of one step have: what the blocks given do from position 0, then the
notice list's taking unless it is left (R82). -/
theorem deliverBoundary_of_due {s : State} (h : s.scheduler.due.scheduler = true) (noticesLate : Bool) (blocks : State → State) :
    deliverBoundary noticesLate blocks s =
      (if noticesLate then id else noticesTakeBoundary)
        (blocks
          { s with
            scheduler :=
              { s.scheduler with
                position := 0
                cycle := s.scheduler.cycle + 1
                due := { s.scheduler.due with scheduler := false } } }) := by
  simp only [deliverBoundary, h, if_true]
  cases noticesLate <;> rfl

end Sys2Proof.Laws
end

