-- ==== Sys2Proof/Laws/Step.lean ====
section
/-! SUPPORT. What a step can do: it always answers a next state, and it is `exec` of the command at the front of the queue. -/

namespace Sys2Proof.Laws

set_option Elab.async false

open Sys2Proof.Machine

/-- Every command answers a next state. -/
theorem exec_next (i : Instr) (s : State) : ∃ t, exec i s = .next t := by
  cases i <;> exact ⟨_, rfl⟩

/-- A step on an empty queue changes nothing. -/
theorem step_of_idle {s : State} (h : s.pending = []) : step s = .next s := by
  simp [step, h]

/-- What every command keeps, for a property that does not read the queue, every step keeps. -/
theorem step_keeps {inv : State → Prop} (queue : ∀ s q, inv s → inv { s with pending := q })
    (kept : ∀ i s t, inv s → exec i s = .next t → inv t) {s t : State} (hs : inv s) (h : step s = .next t) : inv t := by
  unfold step at h
  split at h
  · cases h
    exact hs
  · exact kept _ _ _ (queue s _ hs) h

end Sys2Proof.Laws
end

