-- ==== Sys2Proof/Tests/Slice0.lean ====
section
/-! SUPPORT. Small tests of the model by evaluation, and for every statement with hypotheses a state and operands that meet them. -/

namespace Sys2Proof.Tests

set_option Elab.async false

open Sys2Proof.Machine Sys2Proof.Safety Sys2Proof.Claims

/-! ## States and operands for the tests -/

/-- A receiver in LOCKED. -/
def lockedRx : Receiver := { delineation := .locked, count := 0, position := 360 }

/-- An enabled port without floors. -/
def openEntry : PortEntry := { enable := true, upFloor := 0, upCeiling := 32, downFloor := 0, downCeiling := 32 }

/-- After reset, with the trunk and T0 LOCKED and port T0 UP. -/
def base : State :=
  { State.reset with
    links := { State.reset.links with trunkRx := lockedRx, tribRx := (Vector.replicate 8 Receiver.reset).set 0 lockedRx }
    ports :=
      { State.reset.ports with
        table := (Vector.replicate 8 PortEntry.reset).set 0 openEntry
        rxLocked := (Vector.replicate 8 false).set 0 true } }

/-- A cell of a position, tag and index, its payload full for all positions but an abandon LAST. -/
def cellOf (p : Position) (tag : Tag) (index : Index) : Cell :=
  { tag := tag, position := p, abandon := false, fill := 32, index := index, payload := List.replicate 32 0x5A }

/-- A command of a kind with its operands, number 7. -/
def command (k : CommandKind) (operands : List Byte) : TakenCommand :=
  { kind := kindCode k, seq := 7, operands := operands, fill := BitVec.ofNat 6 (operands.length + 2) }

/-- A state with one command in its command queue. -/
def given (k : CommandKind) (operands : List Byte) (s : State) : State :=
  { s with engine := { s.engine with commands := [command k operands], lastTaken := some (7, .queued) } }

/-- The state a command leaves. -/
def after (i : Instr) (s : State) : State :=
  match exec i s with
  | .next t => t
  | .fault _ => State.reset
  | .refused _ => State.reset

/-- The newest response placed by a command. -/
def answer (i : Instr) (s : State) : Option (Result × List Byte) :=
  (after i s).engine.placed.getLast?.map fun r => (r.result, r.data)

/-- A record of the notice list, number 1. -/
def record (kind : NoticeKind) (state : NoticeState) (count : Byte) : NoticeRecord :=
  { number := 1, kind := kind, subject := 0, count := count, detail := 0, state := state }

/-- A state with the records given. -/
def withRecords (records : List NoticeRecord) (s : State) : State := { s with notices := { s.notices with records := records } }

/-- The boundary after the last slot is due at every block. -/
def atBoundary (s : State) : State :=
  { s with scheduler := { s.scheduler with position := 7, due := { scheduler := true, plan := true, notices := true, survey := true } } }

/-- The entry of tag 100 in the tests: in both plans, to T0 on local channel 3. -/
def entry100 (c : Current) : ChannelEntry := { mask := .both, trib := 0, channel := 3, current := c }

/-- A state whose channel map has the entry of tag 100 with a current part. -/
def withEntry (c : Current) (s : State) : State := { s with channels := [(100, entry100 c)] }

/-- An ingress record open on trunk tag 5. -/
def opened5 : Ingress := .opened 5 5 64 1 1

/-- T0's first cell is queued and its message open; T1 holds the borrow stack with its head message started; T2 is owed an abandon cell; a
cell waits in D0 for the message open on tag 100; a trial and a survey run; a notice has been sent and a command waits. -/
def loaded : State :=
  { given .echo [1, 2] base with
    pending := [.slot]
    links := { base.links with tribRx := base.links.tribRx.set 1 lockedRx }
    store :=
      { free := 508
        up := (base.store.up.set 0 { cells := [cellOf .first 5 0], complete := 0, head := none }).set 1
          { cells := [cellOf .middle 66 1, cellOf .last 66 2], complete := 1, head := some { tag := 66, next := 1 } }
        down := base.store.down.set 0 [cellOf .first 3 0] }
    ports :=
      { table := (base.ports.table.set 0 { openEntry with upFloor := 4, downCeiling := 128 }).set 1 { openEntry with downFloor := 32 }
        rxLocked := base.ports.rxLocked.set 1 true
        ingress := base.ports.ingress.set 0 opened5 }
    plans := { base.plans with switch := .trial 5 1 }
    scheduler := { base.scheduler with position := 3, borrow := [1], abandon := [{ trib := 2, tag := 130, next := 3 }] }
    channels := [(100, entry100 (.opened 0 3 1))]
    notices :=
      { base.notices with
        records := [record .restarted .waiting 1, { record .portChange (.sent 5) 255 with number := 2 }]
        counter := 3 }
    survey := { Survey.reset with state := .running, window := 9, cycles := 2 } }

/-! ## Well-formed terms -/

theorem test_seek_of_five_bytes_refused : Instr.wf (.seekHeaderTest .trunk [1, 2, 3, 4, 5]) = false := by decide +kernel
theorem test_seek_of_four_bytes_accepted : Instr.wf (.seekHeaderTest .trunk [1, 2, 3, 4]) = true := by decide +kernel
theorem test_confirm_of_short_cell_refused : Instr.wf (.confirmHeaderTest (.tributary 0) (List.replicate 35 0) .last) = false := by decide +kernel
theorem test_locked_of_long_cell_refused : Instr.wf (.lockedHeaderTest .trunk (List.replicate 37 0) [] .last) = false := by decide +kernel
theorem test_between_at_tributary_refused :
    Instr.wf (.lockedHeaderTest (.tributary 1) (List.replicate 36 0) [.slot] .last) = false := by decide +kernel
theorem test_between_of_short_cell_refused :
    Instr.wf (.lockedHeaderTest .trunk (List.replicate 36 0) [.headerTest 0 [1] .last] .last) = false := by decide +kernel
theorem test_between_at_trunk_accepted :
    Instr.wf (.lockedHeaderTest .trunk (List.replicate 36 0) [.slot, .headerTest 0 (List.replicate 36 0) .first] .last) = true := by decide +kernel

/-! ## The layouts of chapter 10, against its worked examples -/

theorem test_idle_header : idleCell.wire.take 4 = [0xFF, 0xF0, 0x00, 0x95] := by decide +kernel
theorem test_first_on_194 : (cellOf .first 194 0).wire.take 3 = [0x30, 0xA4, 0x00] := by decide +kernel
theorem test_abandon_on_131 :
    (AbandonEntry.cell { trib := 2, tag := 131, next := 2 }).wire.take 3 = [0x20, 0xD8, 0x02] := by decide +kernel
theorem test_notice_header : (record .restarted .waiting 1).cell.wire.take 3 = [0xFF, 0xB0, 0xC0] := by decide +kernel
theorem test_idle_header_valid : headerValid [0xFF, 0xF0, 0x00, 0x95] = true := by decide +kernel
theorem test_one_bit_off_invalid : headerValid [0xFF, 0xF0, 0x01, 0x95] = false := by decide +kernel
theorem test_decode_abandon_header :
    decodeCell ([0x20, 0xD8, 0x02, 0x00] ++ List.replicate 32 0)
      = { tag := 131, position := .last, abandon := true, fill := 0, index := 2, payload := [] } := by decide +kernel
theorem test_two_byte_operand : wordAt [0x03, 0xB0] 0 = 944 := by decide +kernel
theorem test_no_row_has_bits : decodeTableWord 8 0 = none := by decide +kernel

/-! ## One step of each command -/

theorem test_power_on : (after .powerOn base).links.trunkTx = .silent := by decide +kernel
theorem test_reset_n_keeps_cause : (after .resetN (after .powerOn base)).pins.hardReset = some .powerOn := by decide +kernel
theorem test_hard_reset_end : (after .hardResetEnd (after .resetN base)).notices = .reset .resetPin := by decide +kernel
theorem test_signal_loss : (after (.signalLoss (.tributary 0) .last) loaded).ports.state 0 = .down := by decide +kernel
theorem test_signal_loss_flushes : (after (.signalLoss (.tributary 0) .last) loaded).store.free = 510 := by decide +kernel
theorem test_signal_return :
    (after (.signalReturn .trunk) (after (.signalLoss .trunk .last) base)).links.trunkRx = seekAt 0 := by decide +kernel
theorem test_seek_test :
    (after (.seekHeaderTest (.tributary 3) [0xFF, 0xF0, 0x00, 0x95]) base).links.tribRx[3]
      = { delineation := .confirm, count := 1, position := 36 } := by decide +kernel
theorem test_confirm_test_bad :
    (after (.confirmHeaderTest (.tributary 3) (List.replicate 36 1) .last)
        (setReceiver (.tributary 3) { delineation := .confirm, count := 2, position := 36 } base)).links.tribRx[3] = seekAt 37 := by
  decide +kernel
theorem test_trunk_first_opens_entry :
    (after (.lockedHeaderTest .trunk (cellOf .first 100 0).wire [] .last) (withEntry .idle base)).channels.get 100
      = entry100 (.opened 0 3 1) := by decide +kernel
theorem test_refused_last_converted_after_send :
    (after
        (.lockedHeaderTest .trunk (cellOf .last 100 1).wire [.cellTime 0] .last)
        { withEntry (.opened 0 3 1) base with
          store := { base.store with free := 480, down := base.store.down.set 0 (List.replicate 32 (cellOf .middle 3 1)) } }).bank.down[0]
      = { DownlinkCounters.zero with queueFull := 1, discarded := 1, sentToTributary := 1, conversions := 1, admitted := 1 } := by
  decide +kernel
theorem test_slot_sends_abandon_first :
    (after .slot { loaded with pending := [] }).links.trunkTx
      = .sending { tag := 130, position := .last, abandon := true, fill := 0, index := 3, payload := [] } := by decide +kernel
theorem test_slot_at_reset_sends_restarted :
    (after .slot State.reset).links.trunkTx
      = .sending
          { tag := 1022, position := .sole, abandon := false, fill := 6, index := 0, payload := [0xE0, 1, 1, 0, 1, 1] } := by
  decide +kernel
theorem test_boundary : (after (.cycleBoundary ⟨.beforePlan, .last, false⟩) (atBoundary base)).scheduler.position = 0 := by decide +kernel
theorem test_boundary_counts_trial :
    (after (.cycleBoundary ⟨.afterPlan, .last, false⟩) (atBoundary loaded)).plans.switch = .trial 4 1 := by decide +kernel
theorem test_plan_reverted :
    (after .planReverted (atBoundary { base with plans := { base.plans with run := 1, switch := .trial 1 0 } })).plans.run = 0 := by
  decide +kernel
theorem test_repeat_expiry :
    (after .noticeRepeatExpiry (atBoundary (withRecords [record .restarted (.sent 31) 1] base))).notices.records
      = [record .restarted (.sent 32) 1] := by decide +kernel
theorem test_survey_done :
    (after .surveyDone (atBoundary { base with survey := { Survey.reset with state := .running, window := 1 } })).survey
      = { Survey.reset with state := .done, window := 1, cycles := 1 } := by decide +kernel
theorem test_cell_time : (after (.tributaryCellTime 0) loaded).links.tribTx[0] = .sending (cellOf .first 3 0) := by decide +kernel
theorem test_echo : answer .echo (given .echo [9, 8] base) = some (.ok, [9, 8]) := by decide +kernel
theorem test_short_command : answer .readPort (given .readPort [] base) = some (.length, []) := by decide +kernel
theorem test_identify :
    answer .identify (given .identify [] base) = some (.ok, [0x4E, 0x08, 0x18, 0x02, 0x02, 0x00, 0x08, 0x02]) := by decide +kernel
theorem test_read_status_at_reset :
    answer .readStatus (given .readStatus [] State.reset)
      = some (.ok,
          [0, 1, 0, 0, 0, 0, 0, 0, 2, 0, 0, 0, 0xFF, 0xFF, 0xFF, 0xFF, 0xFF, 0xFF, 0xFF, 0xFF, 0, 0, 1, 0, 0, 1]) := by decide +kernel
theorem test_restart : answer .restart (given .restart [] loaded) = some (.ok, [0, 0]) := by decide +kernel
theorem test_restart_keeps_ports : (after .restart (given .restart [] loaded)).ports.table = loaded.ports.table := by decide +kernel
theorem test_unknown_kind :
    answer .unknownKind
        { base with engine := { base.engine with commands := [{ kind := 0x60, seq := 1, operands := [], fill := 2 }] } }
      = some (.unknownKind, []) := by decide +kernel
theorem test_select_edit_plan : (after .selectEditPlan (given .selectEditPlan [0] base)).plans.edit = 0 := by decide +kernel
theorem test_write_slots :
    (after .writeSlots (given .writeSlots [7, 2, 8, 3] base)).plans.plan[1].owner 8 = .trib 3 := by decide +kernel
theorem test_write_slots_in_trial :
    answer .writeSlots (given .writeSlots [7, 2, 8, 3] loaded) = some (.inUse, [0, 2]) := by decide +kernel
theorem test_set_cycle_length :
    (after .setCycleLength (given .setCycleLength [1, 0] base)).plans.plan[1].length = 256 := by decide +kernel
theorem test_set_cycle_length_range :
    answer .setCycleLength (given .setCycleLength [1, 1] base) = some (.range, []) := by decide +kernel
theorem test_write_tributary_entry :
    (after .writeTributaryEntry (given .writeTributaryEntry [2, 7, 0, 0x03, 0xB0, 64] base)).plans.plan[1].entries[2]
      = { rank := 7, borrow := false, tagBase := 944, limit := 64 } := by decide +kernel
theorem test_set_plan_options :
    (after .setPlanOptions (given .setPlanOptions [7, 1] base)).plans.plan[1].express = some 7 := by decide +kernel
theorem test_copy_plan :
    (after .copyPlan (given .copyPlan [] base)).plans.plan[1] = base.plans.plan[0] := by rfl
theorem test_read_slots : answer .readSlots (given .readSlots [0, 0, 2] base) = some (.ok, [8, 9]) := by decide +kernel
theorem test_read_tributary_entry :
    answer .readTributaryEntry (given .readTributaryEntry [0, 3] base) = some (.ok, [3, 1, 0, 192, 64]) := by decide +kernel
theorem test_read_plan_options :
    answer .readPlanOptions (given .readPlanOptions [1] base) = some (.ok, [0, 8, 0xFF, 0, 0, 0]) := by decide +kernel
theorem test_switch_plan :
    (after .switchPlan (given .switchPlan [1, 1, 0, 3] base)).plans.switch = .pending 1 (.trial 3) := by decide +kernel
theorem test_switch_plan_to_running :
    answer .switchPlan (given .switchPlan [0, 0, 0, 0] base) = some (.state, [0, 0]) := by decide +kernel
theorem test_confirm_plan : answer .confirmPlan (given .confirmPlan [] loaded) = some (.ok, [0, 5]) := by decide +kernel
theorem test_write_port_disables :
    (after (.writePort .last) (given .writePort [0, 0, 0, 32, 0, 32] loaded)).store.free = 510 := by decide +kernel
theorem test_write_port_no_room :
    answer (.writePort .last)
        (given .writePort [7, 1, 64, 64, 64, 64]
          { base with ports := { base.ports with table := Vector.replicate 8 { openEntry with upFloor := 24, downFloor := 24 } } })
      = some (.noRoom, [2, 0, 1, 208]) := by decide +kernel
theorem test_read_port :
    answer .readPort (given .readPort [0] loaded) = some (.ok, [2, 1, 4, 32, 0, 128, 1, 1, 1, 0, 0]) := by decide +kernel
theorem test_flush_port : answer .flushPort (given .flushPort [1, 3] loaded) = some (.ok, [2, 0]) := by decide +kernel
theorem test_flush_port_owes_abandon :
    (after .flushPort (given .flushPort [1, 1] loaded)).scheduler.abandon
      = [{ trib := 2, tag := 130, next := 3 }, { trib := 1, tag := 66, next := 1 }] := by decide +kernel
theorem test_write_channels :
    (after .writeChannels (given .writeChannels [0, 99, 2, 4, 62, 3] loaded)).channels.get 100
      = { mask := .both, trib := 4, channel := 63, current := .opened 0 3 1 } := by decide +kernel
theorem test_read_channel :
    answer .readChannel (given .readChannel [0, 100] loaded) = some (.ok, [3, 0, 3, 1, 1, 0, 3, 1, 1]) := by decide +kernel
theorem test_read_counters :
    answer .readCounters (given .readCounters [2, 0] base) = some (.ok, List.replicate 28 0) := by decide +kernel
theorem test_clear_counters :
    (after .clearCounters (given .clearCounters [2, 0] (countTrunk .bumpInactive base))).bank.trunk = .zero := by decide +kernel
theorem test_start_survey :
    (after .startSurvey (given .startSurvey [1, 2] base)).survey = { Survey.reset with state := .armed, window := 258 } := by
  decide +kernel
theorem test_stop_survey : answer .stopSurvey (given .stopSurvey [] loaded) = some (.state, [2, 0, 9]) := by decide +kernel
theorem test_read_survey :
    answer .readSurvey (given .readSurvey [2] loaded) = some (.ok, [2, 0, 2, 0, 0, 0, 0, 0, 0, 0, 0, 9]) := by decide +kernel
theorem test_ack_notice : answer .ackNotice (given .ackNotice [1, 1] base) = some (.ok, [0, 0]) := by decide +kernel
theorem test_ack_notice_with_old_count :
    answer .ackNotice (given .ackNotice [2, 254] loaded) = some (.ok, [1, 255]) := by decide +kernel
theorem test_set_notice_options :
    answer .setNoticeOptions (given .setNoticeOptions [0, 0, 1] base) = some (.ok, [0x80, 0x02, 1]) := by decide +kernel

/-! ## Witnesses: states and operands that meet each statement's hypotheses -/

/-- What holds of the trunk and of each tributary holds of every link. -/
theorem forallLink {P : Link → Prop} (ht : P .trunk) (hn : ∀ n, P (.tributary n)) : ∀ l, P l
  | .trunk => ht
  | .tributary n => hn n

/-- A command of enough operands in the queue of a free engine is ready. -/
theorem ready_given {k : CommandKind} {operands : List Byte} {s : State} (hr : s.pins.hardReset = none)
    (hp : s.engine.inProgress = none) (hu : (given k operands s).engine.entriesUsed < 8)
    (hn : operandsNeeded k operands ≤ operands.length) : Ready k (command k operands) [] (given k operands s) :=
  ⟨hr, hp, hu, rfl, rfl, hn⟩

/-- Such a command is ready in the state after reset with T0 UP. -/
theorem ready_base {k : CommandKind} {operands : List Byte} (hn : operandsNeeded k operands ≤ operands.length) :
    Ready k (command k operands) [] (given k operands base) :=
  ready_given rfl rfl (by show (0 : Nat) < 8; decide) hn

/-- Such a command is ready in the busy state. -/
theorem ready_loaded {k : CommandKind} {operands : List Byte} (hn : operandsNeeded k operands ≤ operands.length) :
    Ready k (command k operands) [] (given k operands loaded) :=
  ready_given rfl rfl (by show (0 : Nat) < 8; decide) hn

theorem witness_step_runs_front : loaded.pending = .slot :: [] := rfl

theorem witness_receivers : ReceiversOk loaded ∧ ∃ t, step loaded = .next t :=
  ⟨⟨forallLink (by show (0 : Nat) ≤ 4; decide) fun n => by
      have h : receiver (.tributary n) loaded = lockedRx ∨ receiver (.tributary n) loaded = .reset := by revert n; decide +kernel
      rcases h with h | h <;> rw [h]
      · show (0 : Nat) ≤ 4
        decide
      · rfl,
    fun _ => forallLink (by decide +kernel) (by decide +kernel), by decide +kernel⟩, _, rfl⟩

theorem witness_store : StoreOk loaded ∧ ∃ t, step loaded = .next t :=
  ⟨by unfold StoreOk portEntryOk; decide +kernel, _, rfl⟩

theorem witness_uplink : UplinkOk loaded ∧ ∃ t, step loaded = .next t := ⟨by unfold UplinkOk; decide +kernel, _, rfl⟩

theorem witness_ports : PortsOk loaded ∧ ∃ t, step loaded = .next t := ⟨by unfold PortsOk; decide +kernel, _, rfl⟩

theorem witness_channels : ChannelsOk loaded ∧ ∃ t, step loaded = .next t := by
  refine ⟨⟨by decide +kernel, fun tag n h => ?_⟩, _, rfl⟩
  by_cases ht : tag = 100
  · subst ht
    revert n
    decide +kernel
  · simp [loaded, ChannelMap.get, ht, ChannelEntry.reset, Current.openFor] at h

theorem witness_plans : PlansOk loaded ∧ ∃ t, step loaded = .next t :=
  ⟨by unfold PlansOk planOk; exact ⟨by decide +kernel, by decide +kernel, by show _ ∧ _; decide +kernel, by decide +kernel⟩, _, rfl⟩

theorem witness_scheduler : UplinkOk loaded ∧ SchedulerOk loaded ∧ ∃ t, step loaded = .next t :=
  ⟨by unfold UplinkOk; decide +kernel, by unfold SchedulerOk; decide +kernel, _, rfl⟩

theorem witness_engine : EngineOk loaded ∧ ∃ t, step loaded = .next t := by
  refine ⟨⟨by decide +kernel, by decide +kernel, rfl, fun c rest h => ?_, fun c h => ?_, fun number h => ?_⟩, _, rfl⟩
  · have hc : [command .echo [1, 2]] = rest ++ [c] := h
    have := congrArg List.getLast? hc
    simp only [List.getLast?_append, List.getLast?_singleton, Option.some_or] at this
    injection this with this
    subst this
    rfl
  · exact absurd h (by decide +kernel)
  · exact absurd (congrArg (fun o => o.map Prod.snd) h) (by show some Standing.queued ≠ some .completed; decide)

theorem witness_notices : NoticesOk loaded ∧ ∃ t, step loaded = .next t := ⟨by unfold NoticesOk; decide +kernel, _, rfl⟩

theorem witness_running_plan_in_trial :
    ∃ t, exec .selectEditPlan (given .selectEditPlan [0] loaded) = .next t
      ∧ ∃ r f, (given .selectEditPlan [0] loaded).plans.switch = .trial r f := ⟨_, rfl, 5, 1, rfl⟩

/-- A FIRM switch to plan 1 waits for the boundary that is due. -/
def switching : State :=
  atBoundary
    { base with
      plans := { base.plans with switch := .pending 1 .firm }
      engine := { base.engine with inProgress := some (command .switchPlan [1, 0, 0, 0]), reserved := true, lastTaken := some (7, .executing) } }

theorem witness_run_selector_changes :
    ∃ t, exec (.cycleBoundary ⟨.afterPlan, .last, false⟩) switching = .next t ∧ t.plans.run ≠ switching.plans.run :=
  ⟨_, rfl, by decide +kernel⟩

theorem witness_cell_on_line :
    (cellOf .first 5 0).fill.toNat ≤ 32 ∧ (cellOf .first 5 0).payload.length = (cellOf .first 5 0).fill.toNat
      ∧ idleCell.fill.toNat ≤ 32 ∧ idleCell.payload.length = idleCell.fill.toNat := by decide +kernel

/-- A state with a receiver of a link in a state and count. -/
def receiving (l : Link) (d : Delineation) (count : Nat) (s : State) : State :=
  setReceiver l { delineation := d, count := count, position := 72 } s

theorem witness_seek : Tests (.tributary 7) .seek [0xFF, 0xF0, 0x00, 0x95] 4 base := by unfold Tests; decide +kernel

theorem witness_confirm_valid :
    Tests .trunk .confirm idleCell.wire 36 (receiving .trunk .confirm 2 base) ∧ headerValid idleCell.wire = true
      ∧ (receiver .trunk (receiving .trunk .confirm 2 base)).count < 3 := by unfold Tests; decide +kernel

theorem witness_confirm_invalid :
    Tests .trunk .confirm (List.replicate 36 1) 36 (receiving .trunk .confirm 3 base)
      ∧ headerValid (List.replicate 36 1) = false := by unfold Tests; decide +kernel

theorem witness_fourth_header :
    Tests (.tributary 7) .confirm idleCell.wire 36 (receiving (.tributary 7) .confirm 3 base)
      ∧ (receiver (.tributary 7) (receiving (.tributary 7) .confirm 3 base)).count = 3 ∧ headerValid idleCell.wire = true
      ∧ (decodeCell idleCell.wire).tag = 1023 ∧ (receiving (.tributary 7) .confirm 3 base).ports.rxLocked[(7 : Trib)] = false
      ∧ (receiving (.tributary 7) .confirm 3 base).ports.table[(7 : Trib)].enable = false := by unfold Tests; decide +kernel

/-- Port T7 enabled and DOWN. -/
def waitingPort : State := { base with ports := { base.ports with table := base.ports.table.set 7 openEntry } }

theorem witness_fourth_header_enabled :
    Tests (.tributary 7) .confirm idleCell.wire 36 (receiving (.tributary 7) .confirm 3 waitingPort)
      ∧ (receiving (.tributary 7) .confirm 3 waitingPort).ports.rxLocked[(7 : Trib)] = false
      ∧ (receiving (.tributary 7) .confirm 3 waitingPort).ports.table[(7 : Trib)].enable = true := by unfold Tests; decide +kernel

theorem witness_fourth_header_hands_on :
    Tests .trunk .confirm (cellOf .first 100 0).wire 36 (receiving .trunk .confirm 3 (withEntry .idle base))
      ∧ (receiver .trunk (receiving .trunk .confirm 3 (withEntry .idle base))).count = 3 ∧ headerValid (cellOf .first 100 0).wire = true
      ∧ (decodeCell (cellOf .first 100 0).wire).tag ≠ 1023
      ∧ ∀ n : Trib, Link.trunk = .tributary n → (receiving .trunk .confirm 3 (withEntry .idle base)).ports.rxLocked[n] = false := by
  unfold Tests; decide +kernel

theorem test_fourth_header_of_trunk :
    (after (.confirmHeaderTest .trunk (cellOf .first 100 0).wire .last)
        (receiving .trunk .confirm 3 (withEntry .idle base))).channels.get 100 = entry100 (.opened 0 3 1)
      ∧ ((after (.confirmHeaderTest .trunk (cellOf .first 100 0).wire .last)
        (receiving .trunk .confirm 3 (withEntry .idle base))).notices.records.map fun r => (r.kind, r.detail))
        = [(.restarted, 1), (.trunkRxChange, 2)] := by decide +kernel

theorem witness_locked_idle :
    Tests .trunk .locked idleCell.wire 36 base ∧ headerValid idleCell.wire = true ∧ (decodeCell idleCell.wire).tag = 1023 := by
  unfold Tests; decide +kernel

theorem witness_locked_bad :
    Tests (.tributary 0) .locked (List.replicate 36 1) 36 (receiving (.tributary 0) .locked 3 base)
      ∧ headerValid (List.replicate 36 1) = false
      ∧ (receiver (.tributary 0) (receiving (.tributary 0) .locked 3 base)).count < 4 := by unfold Tests; decide +kernel

theorem witness_trunk_lock_loss :
    Tests .trunk .locked (List.replicate 36 1) 36 (receiving .trunk .locked 4 loaded)
      ∧ (receiving .trunk .locked 4 loaded).links.trunkRx.count = 4 ∧ headerValid (List.replicate 36 1) = false
      ∧ (receiving .trunk .locked 4 loaded).channels.wf = true := by unfold Tests; decide +kernel

theorem witness_signal_loss :
    loaded.pins.hardReset = none ∧ (receiver (.tributary 0) loaded).delineation = .locked ∧ loaded.ports.table[(0 : Trib)].enable = true
      ∧ loaded.ports.rxLocked[(0 : Trib)] = true ∧ loaded.channels.wf = true
      ∧ ∃ tag ch lim adm next, loaded.ports.ingress[(0 : Trib)] = .opened tag ch lim adm next :=
  ⟨rfl, by decide +kernel, by decide +kernel, by decide +kernel, by decide +kernel, 5, 5, 64, 1, 1, by decide +kernel⟩

theorem witness_signal_loss_without_message :
    loaded.pins.hardReset = none ∧ (receiver (.tributary 1) loaded).delineation = .locked ∧ loaded.ports.table[(1 : Trib)].enable = true
      ∧ loaded.ports.rxLocked[(1 : Trib)] = true ∧ loaded.channels.wf = true ∧ loaded.ports.ingress[(1 : Trib)] = .idle := by
  decide +kernel

theorem witness_trunk_signal_loss :
    loaded.pins.hardReset = none ∧ loaded.links.trunkRx.delineation = .locked ∧ loaded.channels.wf = true := by decide +kernel

theorem witness_fifth_bad_header_of_tributary :
    (receiver (.tributary 0) (receiving (.tributary 0) .locked 4 loaded)).count = 4
      ∧ hasSignal (.tributary 0) (receiving (.tributary 0) .locked 4 loaded) = true ∧ loaded.ports.rxLocked[(0 : Trib)] = true
      ∧ headerValid (List.replicate 36 1) = false := by decide +kernel

/-- T0 DISABLED behind a LOCKED receiver. -/
def lockedClosed : State := { base with ports := { base.ports with table := base.ports.table.set 0 .reset } }

theorem witness_lock_loss_of_closed_port :
    lockedClosed.pins.hardReset = none ∧ (receiver (.tributary 0) lockedClosed).delineation = .locked
      ∧ lockedClosed.ports.rxLocked[(0 : Trib)] = true ∧ lockedClosed.channels.wf = true
      ∧ lockedClosed.ports.table[(0 : Trib)].enable = false := by decide +kernel

/-- T0's message open, and no record of T0 in the notice list. -/
def openBase : State := { base with ports := { base.ports with ingress := base.ports.ingress.set 0 opened5 } }

theorem test_lock_loss_posts_change_last :
    ((after (.signalLoss (.tributary 0) .last) openBase).notices.records.map NoticeRecord.kind)
      = [.restarted, .messageCut, .portChange] := by decide +kernel
theorem test_lock_loss_posts_change_first :
    ((after (.signalLoss (.tributary 0) .first) openBase).notices.records.map NoticeRecord.kind)
      = [.restarted, .portChange, .messageCut] := by decide +kernel

theorem witness_unlocked_signal :
    base.pins.hardReset = none ∧ (receiver (.tributary 5) base).delineation ≠ .locked
      ∧ (receiver (.tributary 5) (setSignal (.tributary 5) false base)).delineation ≠ .locked
      ∧ hasSignal (.tributary 5) (setSignal (.tributary 5) false base) = false := by decide +kernel

theorem witness_reset_pin : base.pins.hardReset = none ∧ (after .powerOn base).pins.hardReset = some .powerOn := by decide +kernel

theorem witness_other_command_in_hard_reset :
    (after .powerOn loaded).pins.hardReset = some .powerOn ∧ Instr.slot ≠ .powerOn ∧ Instr.slot ≠ .resetN ∧ Instr.slot ≠ .hardResetEnd
      ∧ (∀ l turn, Instr.slot ≠ .signalLoss l turn) ∧ ∀ l, Instr.slot ≠ .signalReturn l :=
  ⟨by decide +kernel, nofun, nofun, nofun, nofun, nofun⟩
theorem test_slot_and_echo_still_in_hard_reset :
    after .slot (after .powerOn loaded) = after .powerOn loaded ∧ after .echo (after .powerOn loaded) = after .powerOn loaded :=
  ⟨rfl, rfl⟩

theorem witness_offer_below_ceiling :
    loaded.store.up[(0 : Trib)].cells.length < loaded.ports.table[(0 : Trib)].upCeiling
      ∧ loaded.store.up[(0 : Trib)].cells.length < loaded.ports.table[(0 : Trib)].upFloor
      ∧ loaded.store.down[(0 : Trib)].length < loaded.ports.table[(0 : Trib)].downCeiling ∧ loaded.reserve < loaded.store.free := by
  decide +kernel

/-- U0 and D0 at their ceilings of 1. -/
def fullQueues : State :=
  { loaded with ports := { loaded.ports with table := loaded.ports.table.set 0 { openEntry with upCeiling := 1, downCeiling := 1 } } }

theorem witness_offer_at_ceiling :
    fullQueues.ports.table[(0 : Trib)].upCeiling ≤ fullQueues.store.up[(0 : Trib)].cells.length
      ∧ fullQueues.ports.table[(0 : Trib)].downCeiling ≤ fullQueues.store.down[(0 : Trib)].length := by decide +kernel

/-- As many free buffers as the reserve. -/
def noSpare : State := { loaded with store := { loaded.store with free := loaded.reserve } }

theorem witness_offer_without_buffer :
    noSpare.store.up[(1 : Trib)].cells.length < noSpare.ports.table[(1 : Trib)].upCeiling
      ∧ noSpare.ports.table[(1 : Trib)].upFloor ≤ noSpare.store.up[(1 : Trib)].cells.length
      ∧ noSpare.store.down[(0 : Trib)].length < noSpare.ports.table[(0 : Trib)].downCeiling
      ∧ noSpare.ports.table[(0 : Trib)].downFloor ≤ noSpare.store.down[(0 : Trib)].length
      ∧ noSpare.store.free ≤ noSpare.reserve := by decide +kernel

theorem witness_masked_posting :
    ({ loaded with notices := { loaded.notices with mask := 0x8002 } } : State).notices.mask.getLsbD NoticeKind.surveyDone.code = false := by
  decide +kernel

theorem witness_coalesced_posting :
    loaded.notices.passes .portChange = true
      ∧ loaded.notices.records = [record .restarted .waiting 1] ++ { record .portChange (.sent 5) 255 with number := 2 } :: []
      ∧ ∀ x ∈ [record .restarted .waiting 1], ¬(x.kind = .portChange ∧ x.subject = 0) := by decide +kernel

theorem witness_new_posting :
    loaded.notices.passes .surveyDone = true ∧ (∀ x ∈ loaded.notices.records, ¬(x.kind = .surveyDone ∧ x.subject = 0))
      ∧ loaded.notices.counter ≠ 0 ∧ loaded.notices.records.length ≤ 9 ∧ loaded.notices.ordinary < 8 := by decide +kernel

/-- Eight records of PORT_CHANGE, numbers 1 to 8. -/
def eightRecords : List NoticeRecord :=
  allTribs.map fun n => { record .portChange .waiting 1 with number := byteOf (n.val + 1), subject := tribByte n }

theorem witness_lost_posting :
    (withRecords eightRecords loaded).notices.passes .surveyDone = true
      ∧ (∀ x ∈ eightRecords, ¬(x.kind = .surveyDone ∧ x.subject = 0)) ∧ (withRecords eightRecords loaded).notices.counter ≠ 0
      ∧ eightRecords.length ≤ 9 ∧ 8 ≤ (withRecords eightRecords loaded).notices.ordinary
      ∧ ∀ x ∈ eightRecords, x.kind ≠ .noticesLost := by decide +kernel

theorem witness_lost_posting_with_marker :
    (withRecords (eightRecords ++ [{ record .noticesLost .waiting 255 with number := 9 }]) loaded).notices.passes .surveyDone = true
      ∧ (∀ x ∈ eightRecords ++ [{ record .noticesLost .waiting 255 with number := 9 }], ¬(x.kind = .surveyDone ∧ x.subject = 0))
      ∧ (eightRecords ++ [{ record .noticesLost .waiting 255 with number := 9 }]).length ≤ 9
      ∧ 8 ≤ (withRecords (eightRecords ++ [{ record .noticesLost .waiting 255 with number := 9 }]) loaded).notices.ordinary
      ∧ ∀ x ∈ eightRecords, x.kind ≠ .noticesLost := by decide +kernel

theorem test_number_in_use_passed_over :
    (post .surveyDone 0 0 { loaded with notices := { loaded.notices with counter := 1 } }).notices.records.map NoticeRecord.number
      = [1, 2, 3] := by decide +kernel

theorem witness_first_enters_uplink :
    Tests (.tributary 0) .locked (cellOf .first 63 0).wire 36 base ∧ headerValid (cellOf .first 63 0).wire = true
      ∧ decodeCell (cellOf .first 63 0).wire = cellOf .first 63 0 ∧ (cellOf .first 63 0).wellFormedTributary = true
      ∧ base.ports.table[(0 : Trib)].enable = true ∧ base.ports.ingress[(0 : Trib)] = .idle
      ∧ base.store.up[(0 : Trib)].cells.length < base.ports.table[(0 : Trib)].upCeiling ∧ base.reserve < base.store.free := by
  unfold Tests; decide +kernel

theorem witness_sole_enters_uplink :
    Tests (.tributary 0) .locked (cellOf .sole 0 0).wire 36 base ∧ headerValid (cellOf .sole 0 0).wire = true
      ∧ decodeCell (cellOf .sole 0 0).wire = cellOf .sole 0 0 ∧ (cellOf .sole 0 0).wellFormedTributary = true := by
  unfold Tests; decide +kernel

/-- T0's ingress record replaced. -/
def withIngress (i : Ingress) (s : State) : State := { s with ports := { s.ports with ingress := s.ports.ingress.set 0 i } }

theorem witness_first_in_discarding :
    Tests (.tributary 0) .locked (cellOf .first 63 0).wire 36 (withIngress .discarding base)
      ∧ (withIngress .discarding base).ports.table[(0 : Trib)].enable = true
      ∧ (withIngress .discarding base).ports.ingress[(0 : Trib)] = .discarding ∧ RoomUp 0 (withIngress .discarding base) := by
  unfold Tests RoomUp; decide +kernel

theorem witness_first_refused :
    Tests (.tributary 0) .locked (cellOf .first 63 0).wire 36 (withIngress .idle fullQueues)
      ∧ (withIngress .idle fullQueues).ports.table[(0 : Trib)].enable = true
      ∧ (withIngress .idle fullQueues).ports.ingress[(0 : Trib)] = .idle ∧ RefusesUp 0 true (withIngress .idle fullQueues) := by
  unfold Tests RefusesUp; decide +kernel

theorem witness_sole_while_open :
    Tests (.tributary 0) .locked (cellOf .sole 0 0).wire 36 loaded ∧ headerValid (cellOf .sole 0 0).wire = true
      ∧ loaded.ports.table[(0 : Trib)].enable = true ∧ loaded.ports.ingress[(0 : Trib)] = .opened 5 5 64 1 1
      ∧ RoomUp 0 (cutOpen 0 .firstWhileOpen loaded) := by unfold Tests RoomUp; decide +kernel
theorem test_first_while_open_is_cut_then_opens :
    (after (.lockedHeaderTest (.tributary 0) (cellOf .first 9 0).wire [] .last) openBase).ports.ingress[(0 : Trib)] = .opened 9 9 64 1 1
      ∧ (after (.lockedHeaderTest (.tributary 0) (cellOf .first 9 0).wire [] .last) openBase).notices.records.map NoticeRecord.detail
        = [1, 4] := by decide +kernel

/-- A MIDDLE with a fill no position allows. -/
def malformedCell (tag : Tag) : Cell := { cellOf .middle tag 1 with fill := 31, payload := List.replicate 31 0x5A }

theorem witness_cell_at_disabled_port :
    Tests (.tributary 0) .locked (cellOf .first 63 0).wire 36 lockedClosed ∧ headerValid (cellOf .first 63 0).wire = true
      ∧ (decodeCell (cellOf .first 63 0).wire).tag ≠ 1023 ∧ lockedClosed.ports.table[(0 : Trib)].enable = false := by
  unfold Tests; decide +kernel

theorem witness_malformed_cells_of_tributary :
    Tests (.tributary 0) .locked (malformedCell 5).wire 36 base ∧ headerValid (malformedCell 5).wire = true
      ∧ (decodeCell (malformedCell 5).wire).wellFormedTributary = false ∧ (decodeCell (malformedCell 5).wire).tag ≠ 1023
      ∧ base.ports.table[(0 : Trib)].enable = true ∧ base.ports.ingress[(0 : Trib)] = .idle
      ∧ openBase.ports.ingress[(0 : Trib)] = .opened 5 5 64 1 1
      ∧ (cellOf .first 64 0).wellFormedTributary = false := by unfold Tests; decide +kernel
theorem test_malformed_cell_cuts_open_message :
    (after (.lockedHeaderTest (.tributary 0) (malformedCell 5).wire [] .last) openBase).ports.ingress[(0 : Trib)] = .discarding := by
  decide +kernel

theorem witness_stray_and_discarded_cells :
    Tests (.tributary 0) .locked (cellOf .last 63 4).wire 36 base ∧ headerValid (cellOf .last 63 4).wire = true
      ∧ decodeCell (cellOf .last 63 4).wire = cellOf .last 63 4 ∧ (cellOf .last 63 4).wellFormedTributary = true
      ∧ base.ports.ingress[(0 : Trib)] = .idle ∧ (withIngress .discarding base).ports.ingress[(0 : Trib)] = .discarding
      ∧ Tests (.tributary 0) .locked (cellOf .last 63 4).wire 36 (withIngress .discarding base) := by unfold Tests; decide +kernel

/-- T0's open message has started on the trunk with nothing complete ahead of its queued cell. -/
def startedOpen : State :=
  { loaded with
    store := { loaded.store with up := loaded.store.up.set 0 { cells := [cellOf .middle 5 1], complete := 0, head := some { tag := 5, next := 1 } } }
    ports := { loaded.ports with ingress := loaded.ports.ingress.set 0 (.opened 5 5 64 2 2) } }

theorem witness_index_gap_after_start :
    Tests (.tributary 0) .locked (cellOf .last 5 3).wire 36 startedOpen ∧ headerValid (cellOf .last 5 3).wire = true
      ∧ decodeCell (cellOf .last 5 3).wire = cellOf .last 5 3 ∧ (cellOf .last 5 3).wellFormedTributary = true
      ∧ startedOpen.ports.table[(0 : Trib)].enable = true ∧ startedOpen.ports.ingress[(0 : Trib)] = .opened 5 5 64 2 2
      ∧ (cellOf .last 5 3).index ≠ 2 ∧ startedOpen.store.up[(0 : Trib)].complete = 0
      ∧ startedOpen.store.up[(0 : Trib)].head = some { tag := 5, next := 1 } := by unfold Tests; decide +kernel

theorem witness_index_gap_unstarted :
    Tests (.tributary 0) .locked (cellOf .middle 6 1).wire 36 loaded ∧ headerValid (cellOf .middle 6 1).wire = true
      ∧ decodeCell (cellOf .middle 6 1).wire = cellOf .middle 6 1 ∧ (cellOf .middle 6 1).wellFormedTributary = true
      ∧ loaded.ports.ingress[(0 : Trib)] = .opened 5 5 64 1 1 ∧ (cellOf .middle 6 1).tag.setWidth 6 ≠ (5 : Channel)
      ∧ loaded.store.up[(0 : Trib)].head = none := by unfold Tests; decide +kernel

/-- T0's open message has admitted as many cells as its limit allows, less a number. -/
def nearLimit (left : Nat) (s : State) : State :=
  { s with ports := { s.ports with ingress := s.ports.ingress.set 0 (.opened 5 5 (1 + left) 1 1) } }

theorem witness_over_length :
    Tests (.tributary 0) .locked (cellOf .last 5 1).wire 36 (nearLimit 0 loaded) ∧ headerValid (cellOf .last 5 1).wire = true
      ∧ decodeCell (cellOf .last 5 1).wire = cellOf .last 5 1 ∧ (cellOf .last 5 1).wellFormedTributary = true
      ∧ (nearLimit 0 loaded).ports.ingress[(0 : Trib)] = .opened 5 5 1 1 1 ∧ (cellOf .last 5 1).tag.setWidth 6 = (5 : Channel)
      ∧ 1 < 1 + 1 := by unfold Tests; decide +kernel

theorem witness_last_cell_within_limit :
    Tests (.tributary 0) .locked (cellOf .middle 5 1).wire 36 (nearLimit 1 loaded)
      ∧ headerValid (cellOf .middle 5 1).wire = true ∧ decodeCell (cellOf .middle 5 1).wire = cellOf .middle 5 1
      ∧ (nearLimit 1 loaded).ports.ingress[(0 : Trib)] = .opened 5 5 2 1 1 ∧ 1 + 1 ≤ 2 ∧ RoomUp 0 (nearLimit 1 loaded) := by
  unfold Tests RoomUp; decide +kernel

theorem witness_continuation_refused :
    Tests (.tributary 0) .locked (cellOf .last 5 1).wire 36 fullQueues ∧ fullQueues.ports.ingress[(0 : Trib)] = .opened 5 5 64 1 1
      ∧ RefusesUp 0 true fullQueues ∧ RefusesUp 1 false noSpare := by unfold Tests RefusesUp; decide +kernel

theorem witness_downlink_first :
    Tests .trunk .locked (cellOf .first 100 0).wire 36 (withEntry .idle base) ∧ headerValid (cellOf .first 100 0).wire = true
      ∧ decodeCell (cellOf .first 100 0).wire = cellOf .first 100 0 ∧ (cellOf .first 100 0).fieldsOk = true
      ∧ (withEntry .idle base).channels.wf = true ∧ (withEntry .idle base).channels.get 100 = entry100 .idle
      ∧ (entry100 .idle).mask.includes base.plans.run = true ∧ base.ports.state 0 = .up
      ∧ base.store.down[(0 : Trib)].length < base.ports.table[(0 : Trib)].downCeiling ∧ base.reserve < base.store.free := by
  unfold Tests; decide +kernel

theorem witness_downlink_first_inactive :
    Tests .trunk .locked (cellOf .first 1007 0).wire 36 base ∧ headerValid (cellOf .first 1007 0).wire = true
      ∧ decodeCell (cellOf .first 1007 0).wire = cellOf .first 1007 0 ∧ base.channels.wf = true
      ∧ (base.channels.get 1007).current = .idle ∧ (base.channels.get 1007).mask.includes base.plans.run = false := by
  unfold Tests; decide +kernel

/-- Tag 0 is in both plans towards T6, which is DISABLED. -/
def toClosedPort (c : Current) : State := { base with channels := [(0, { mask := .both, trib := 6, channel := 63, current := c })] }

theorem witness_downlink_first_to_closed_port :
    Tests .trunk .locked (cellOf .first 0 0).wire 36 (toClosedPort .idle) ∧ headerValid (cellOf .first 0 0).wire = true
      ∧ decodeCell (cellOf .first 0 0).wire = cellOf .first 0 0 ∧ (toClosedPort .idle).channels.wf = true
      ∧ ((toClosedPort .idle).channels.get 0).mask.includes base.plans.run = true ∧ (toClosedPort .idle).ports.state 6 ≠ .up := by
  unfold Tests; decide +kernel

/-- D0 holds as many cells as its ceiling of 1 allows, and tag 100 has a current part. -/
def fullDown (c : Current) : State :=
  withEntry c { fullQueues with ports := { fullQueues.ports with table := fullQueues.ports.table.set 0 { openEntry with downCeiling := 1 } } }

theorem witness_downlink_sole_refused :
    Tests .trunk .locked (cellOf .sole 100 0).wire 36 (fullDown .idle) ∧ headerValid (cellOf .sole 100 0).wire = true
      ∧ decodeCell (cellOf .sole 100 0).wire = cellOf .sole 100 0 ∧ (cellOf .sole 100 0).fieldsOk = true
      ∧ (fullDown .idle).channels.wf = true ∧ (fullDown .idle).channels.get 100 = entry100 .idle
      ∧ (entry100 .idle).mask.includes (fullDown .idle).plans.run = true ∧ (fullDown .idle).ports.state 0 = .up
      ∧ RefusesDown 0 true (fullDown .idle) ∧ RefusesDown 0 false noSpare := by unfold Tests RefusesDown; decide +kernel

theorem witness_first_on_open_entry :
    Tests .trunk .locked (cellOf .first 100 0).wire 36 (withEntry (.opened 0 3 5) base) ∧ headerValid (cellOf .first 100 0).wire = true
      ∧ (withEntry (.opened 0 3 5) base).channels.wf = true
      ∧ (withEntry (.opened 0 3 5) base).channels.get 100 = entry100 (.opened 0 3 5)
      ∧ RoomDown 0 (withEntry (.opened 0 3 5) base) := by unfold Tests RoomDown; decide +kernel

theorem witness_sole_on_discarding_entry :
    Tests .trunk .locked (cellOf .sole 100 0).wire 36 (withEntry (.discarding 0 3 5 true) base)
      ∧ headerValid (cellOf .sole 100 0).wire = true ∧ (withEntry (.discarding 0 3 5 true) base).channels.wf = true
      ∧ (withEntry (.discarding 0 3 5 true) base).channels.get 100 = entry100 (.discarding 0 3 5 true) := by
  unfold Tests; decide +kernel
theorem test_first_on_open_entry_gives_up_the_old :
    ((after (.lockedHeaderTest .trunk (cellOf .first 100 0).wire [] .last) (withEntry (.opened 0 3 5) base)).channels.get 100
        = entry100 (.opened 0 3 1))
      ∧ (after (.lockedHeaderTest .trunk (cellOf .first 100 0).wire [] .last) (withEntry (.opened 0 3 5) base)).bank.down[0]
        = { DownlinkCounters.zero with admitted := 1, discarded := 1 } := by decide +kernel

theorem witness_unassignable_tags :
    Tests .trunk .locked (cellOf .middle 1008 1).wire 36 base ∧ headerValid (cellOf .middle 1008 1).wire = true
      ∧ decodeCell (cellOf .middle 1008 1).wire = cellOf .middle 1008 1 ∧ base.channels.wf = true
      ∧ headerValid (cellOf .sole 1021 0).wire = true ∧ decodeCell (cellOf .sole 1021 0).wire = cellOf .sole 1021 0 := by
  unfold Tests; decide +kernel

theorem witness_malformed_cell_of_trunk :
    Tests .trunk .locked (malformedCell 100).wire 36 (withEntry (.opened 0 3 1) base) ∧ headerValid (malformedCell 100).wire = true
      ∧ (decodeCell (malformedCell 100).wire).tag = 100 ∧ (decodeCell (malformedCell 100).wire).fieldsOk = false
      ∧ (withEntry (.opened 0 3 1) base).channels.wf = true := by unfold Tests; decide +kernel

theorem witness_continuation_of_no_message :
    Tests .trunk .locked (cellOf .middle 100 1).wire 36 (withEntry .idle base) ∧ headerValid (cellOf .middle 100 1).wire = true
      ∧ decodeCell (cellOf .middle 100 1).wire = cellOf .middle 100 1 ∧ (cellOf .middle 100 1).fieldsOk = true
      ∧ (withEntry .idle base).channels.get 100 = entry100 .idle
      ∧ (withEntry (.discarding 0 3 1 true) base).channels.get 100 = entry100 (.discarding 0 3 1 true)
      ∧ (withEntry .discardingInactive base).channels.get 100 = entry100 .discardingInactive
      ∧ (withEntry .discardingInactive base).channels.wf = true
      ∧ decodeCell (cellOf .last 100 9).wire = cellOf .last 100 9 := by unfold Tests; decide +kernel

theorem witness_downlink_gap :
    Tests .trunk .locked (cellOf .last 100 2).wire 36 (withEntry (.opened 0 3 1) base)
      ∧ decodeCell (cellOf .last 100 2).wire = cellOf .last 100 2 ∧ headerValid (cellOf .last 100 2).wire = true
      ∧ (withEntry (.opened 0 3 1) base).channels.get 100 = entry100 (.opened 0 3 1) ∧ (cellOf .last 100 2).index ≠ 1 := by
  unfold Tests; decide +kernel

theorem witness_downlink_continues :
    Tests .trunk .locked (cellOf .middle 100 31).wire 36 (withEntry (.opened 0 3 31) base)
      ∧ decodeCell (cellOf .middle 100 31).wire = cellOf .middle 100 31 ∧ headerValid (cellOf .middle 100 31).wire = true
      ∧ (withEntry (.opened 0 3 31) base).channels.get 100 = entry100 (.opened 0 3 31)
      ∧ RoomDown 0 (withEntry (.opened 0 3 31) base) := by unfold Tests RoomDown; decide +kernel

theorem witness_downlink_last_refused :
    Tests .trunk .locked (cellOf .last 100 1).wire 36 (fullDown (.opened 0 3 1))
      ∧ (fullDown (.opened 0 3 1)).channels.get 100 = entry100 (.opened 0 3 1) ∧ RefusesDown 0 true (fullDown (.opened 0 3 1)) := by
  unfold Tests RefusesDown; decide +kernel

theorem test_refused_last_refused_again :
    (after (.lockedHeaderTest .trunk (cellOf .last 100 1).wire [] .last) (fullDown (.opened 0 3 1))).bank.down[0]
      = { DownlinkCounters.zero with queueFull := 2, discarded := 1 } := by decide +kernel

theorem witness_conversion :
    Tests .trunk .locked (cellOf .last 100 9).wire 36 (withEntry (.discarding 0 3 31 true) base)
      ∧ headerValid (cellOf .last 100 9).wire = true ∧ decodeCell (cellOf .last 100 9).wire = cellOf .last 100 9
      ∧ (cellOf .last 100 9).fieldsOk = true ∧ (withEntry (.discarding 0 3 31 true) base).channels.wf = true
      ∧ ((withEntry (.discarding 0 3 31 true) base).channels.get 100).current = .discarding 0 3 31 true
      ∧ base.ports.state 0 = .up ∧ base.store.down[(0 : Trib)].length < base.ports.table[(0 : Trib)].downCeiling
      ∧ base.reserve < base.store.free := by unfold Tests; decide +kernel

theorem witness_undelivered_end :
    Tests .trunk .locked (cellOf .last 100 9).wire 36 (withEntry (.discarding 0 3 1 false) base)
      ∧ ((withEntry (.discarding 0 3 1 false) base).channels.get 100).current = .discarding 0 3 1 false := by
  unfold Tests; decide +kernel

theorem witness_conversion_to_closed_port :
    Tests .trunk .locked (cellOf .last 0 9).wire 36 (toClosedPort (.discarding 6 63 4 true))
      ∧ ((toClosedPort (.discarding 6 63 4 true)).channels.get 0).current = .discarding 6 63 4 true
      ∧ (toClosedPort (.discarding 6 63 4 true)).ports.state 6 ≠ .up := by unfold Tests; decide +kernel

/-- A command cell: ECHO with a number and no operand. -/
def echoCell (seq : Byte) : Cell :=
  { tag := 1022, position := .sole, abandon := false, fill := 2, index := 0, payload := [0x01, seq] }

/-- Four commands wait in the command queue. -/
def fullCommands : State :=
  { base with engine := { base.engine with commands := List.replicate 4 (command .echo []), lastTaken := some (7, .queued) } }

theorem witness_command_taken :
    Tests .trunk .locked (echoCell 8).wire 36 loaded ∧ headerValid (echoCell 8).wire = true
      ∧ decodeCell (echoCell 8).wire = echoCell 8 ∧ byteAt (echoCell 8).wire 5 = 8
      ∧ loaded.engine.lastTaken = some (7, .queued) ∧ loaded.engine.commands.length < 4 := by unfold Tests; decide +kernel

theorem witness_command_overruns :
    Tests .trunk .locked (echoCell 0).wire 36 fullCommands ∧ headerValid (echoCell 0).wire = true
      ∧ decodeCell (echoCell 0).wire = echoCell 0 ∧ byteAt (echoCell 0).wire 5 = 0 ∧ 4 ≤ fullCommands.engine.commands.length := by
  unfold Tests; decide +kernel

/-- Command 7 has completed with the response given stored, and some responses are placed. -/
def completed (placed : Nat) : State :=
  let r : Response := { kind := 1, seq := 7, result := .ok, repeated := false, data := [] }
  { base with engine := { base.engine with lastTaken := some (7, .completed), stored := some r, placed := List.replicate placed r } }

theorem witness_duplicate_queued :
    Tests .trunk .locked (echoCell 7).wire 36 loaded ∧ headerValid (echoCell 7).wire = true
      ∧ decodeCell (echoCell 7).wire = echoCell 7 ∧ byteAt (echoCell 7).wire 5 = 7 ∧ loaded.engine.lastTaken = some (7, .queued) := by
  unfold Tests; decide +kernel

theorem witness_duplicate_repeated :
    Tests .trunk .locked (echoCell 7).wire 36 (completed 7) ∧ (completed 7).engine.lastTaken = some (7, .completed)
      ∧ (completed 7).engine.entriesUsed < 8 ∧ (completed 8).engine.entriesUsed = 8
      ∧ Tests .trunk .locked (echoCell 7).wire 36 (completed 8) := by unfold Tests; decide +kernel

theorem witness_management_malformed :
    Tests .trunk .locked ({ echoCell 7 with fill := 33 } : Cell).wire 36 base
      ∧ headerValid ({ echoCell 7 with fill := 33 } : Cell).wire = true
      ∧ (decodeCell ({ echoCell 7 with fill := 33 } : Cell).wire).tag = 1022
      ∧ ¬(decodeCell ({ echoCell 7 with fill := 33 } : Cell).wire).fill.toNat ≤ 32 := by unfold Tests; decide +kernel

/-- The running plan gives slot 3 to T1. -/
def ownSlot : State :=
  { loaded with
    plans :=
      { loaded.plans with
        plan := loaded.plans.plan.set 0 { loaded.plans.running with slots := loaded.plans.running.slots.set 3 (.trib 1) } } }

theorem witness_own_slot :
    SlotComes (.trib 1) ownSlot ∧ (∀ e ∈ ownSlot.scheduler.abandon, e.trib ≠ 1)
      ∧ ownSlot.store.up[(1 : Trib)].cells = cellOf .middle 66 1 :: [cellOf .last 66 2] := by unfold SlotComes; decide +kernel

theorem witness_abandon_in_spare_slot :
    SlotComes .openSlot loaded ∧ loaded.scheduler.abandon = [] ++ { trib := 2, tag := 130, next := 3 } :: [] := by
  unfold SlotComes; decide +kernel

theorem witness_abandon_in_own_slot :
    SlotComes (.trib 1)
        { ownSlot with
          scheduler :=
            { ownSlot.scheduler with
              abandon := [{ trib := 2, tag := 130, next := 3 }, { trib := 1, tag := 66, next := 1 }] } }
      ∧ ∀ x ∈ [({ trib := 2, tag := 130, next := 3 } : AbandonEntry)], x.trib ≠ 1 := by unfold SlotComes; decide +kernel

theorem witness_abandon_in_unused_own_slot :
    SpareSlot
        { ownSlot with
          scheduler := { ownSlot.scheduler with borrow := [] }
          store := { ownSlot.store with up := ownSlot.store.up.set 1 .empty } } :=
  .inr (.inl ⟨1, by unfold SlotComes; decide +kernel⟩)

theorem witness_management_response :
    SlotComes .management (completed 1) ∧ ∃ r, (completed 1).engine.placed = r :: [] :=
  ⟨by unfold SlotComes; decide +kernel, _, rfl⟩

/-- A record sent with its timer just short of the interval of 32, and one whose timer has reached it. -/
def dueNotice : State :=
  withRecords [record .restarted (.sent 31) 1, { record .portChange (.sent 32) 1 with number := 2 }] base

theorem witness_management_notice :
    SlotComes .management dueNotice ∧ dueNotice.engine.placed = []
      ∧ dueNotice.notices.records
        = [record .restarted (.sent 31) 1] ++ { record .portChange (.sent 32) 1 with number := 2 } :: []
      ∧ (31 : Byte).toNat < dueNotice.notices.interval.toNat ∧ dueNotice.notices.interval.toNat ≤ (32 : Byte).toNat := by
  unfold SlotComes; decide +kernel

theorem test_management_cells :
    (after .slot dueNotice).links.trunkTx
        = .sending
          { tag := 1022, position := .sole, abandon := false, fill := 6, index := 0, payload := [0xE0, 2, 2, 0, 1, 0] }
      ∧ responseCell { kind := 0x60, seq := 9, result := .unknownKind, repeated := true, data := [] }
        = { tag := 1022, position := .sole, abandon := false, fill := 4, index := 0, payload := [0xE0, 9, 1, 1] } := by decide +kernel

/-- T0 and T1 each hold a complete message, no abandon cell is owed and the borrow stack is as given. -/
def candidates (borrow : List Trib) (overtake : Bool) : State :=
  { loaded with
    store :=
      { loaded.store with
        up := loaded.store.up.set 0 { cells := [cellOf .sole 5 0], complete := 1, head := none } }
    plans := { loaded.plans with plan := loaded.plans.plan.set 0 { loaded.plans.running with overtake := overtake } }
    ports := { loaded.ports with ingress := base.ports.ingress }
    scheduler := { loaded.scheduler with borrow := borrow, abandon := [] } }

theorem witness_no_candidate : base.scheduler.borrow = [] ∧ ∀ c, ¬Candidate base c := by unfold Candidate; decide +kernel

theorem witness_best_candidate :
    (candidates [] false).scheduler.borrow = [] ∧ Candidate (candidates [] false) 0
      ∧ ∀ d, Candidate (candidates [] false) d → order (candidates [] false).plans.running 0 ≤ order (candidates [] false).plans.running d := by
  unfold Candidate; decide +kernel

theorem witness_overtaking_candidate :
    (candidates [1] true).scheduler.borrow = 1 :: [] ∧ Candidate (candidates [1] true) 0
      ∧ Qualifies (candidates [1] true).plans.running 1 0
      ∧ ∀ d, Candidate (candidates [1] true) d → Qualifies (candidates [1] true).plans.running 1 d →
        order (candidates [1] true).plans.running 0 ≤ order (candidates [1] true).plans.running d := by
  unfold Candidate Qualifies; decide +kernel

theorem witness_nobody_overtakes :
    (candidates [1] false).scheduler.borrow = 1 :: []
      ∧ ∀ c, Candidate (candidates [1] false) c → ¬Qualifies (candidates [1] false).plans.running 1 c := by
  unfold Candidate Qualifies; decide +kernel

theorem witness_spare_slot :
    SlotComes .openSlot (candidates [1] false) ∧ (candidates [1] false).scheduler.abandon = []
      ∧ borrowDecision (candidates [1] false) = 1 :: []
      ∧ (candidates [1] false).store.up[(1 : Trib)].cells = cellOf .middle 66 1 :: [cellOf .last 66 2] := by
  unfold SlotComes; decide +kernel

theorem witness_idle_slot :
    SlotComes .openSlot { base with scheduler := { base.scheduler with position := 7 } } ∧ base.scheduler.abandon = []
      ∧ borrowDecision base = [] := by unfold SlotComes; decide +kernel

theorem witness_unused_management_slot :
    SpareSlot (withRecords [record .restarted (.sent 31) 1] base)
      ∧ (withRecords [record .restarted (.sent 31) 1] base).scheduler.abandon = []
      ∧ borrowDecision (withRecords [record .restarted (.sent 31) 1] base) = [] :=
  ⟨.inr (.inr ⟨by unfold SlotComes; decide +kernel, rfl, fun r hr => ⟨31, by
    have h : r = record .restarted (.sent 31) 1 := List.mem_singleton.mp hr
    subst h
    exact ⟨rfl, by decide⟩⟩⟩), rfl, by decide +kernel⟩

theorem test_unused_own_slot_is_lent :
    (after .slot { candidates [1] false with
      plans :=
        { loaded.plans with
          plan := loaded.plans.plan.set 0 { loaded.plans.running with slots := loaded.plans.running.slots.set 3 (.trib 5) } } }).links.trunkTx
      = .sending (cellOf .middle 66 1) := by decide +kernel

theorem witness_cell_time :
    loaded.pins.hardReset = none ∧ loaded.ports.state 0 = .up ∧ loaded.store.down[(0 : Trib)] = cellOf .first 3 0 :: []
      ∧ loaded.ports.state 7 ≠ .up ∧ loaded.store.down[(1 : Trib)] = [] := by decide +kernel

theorem witness_boundary_switches :
    BoundaryComes switching ∧ switching.plans.switch = .pending 1 .firm
      ∧ switching.engine.inProgress = some (command .switchPlan [1, 0, 0, 0]) := by unfold BoundaryComes; decide +kernel

theorem test_switch_completes_last_taken :
    (after (.cycleBoundary ⟨.afterPlan, .last, false⟩) switching).engine.lastTaken = some (7, .completed) := by decide +kernel

/-- A boundary that ends PENDING and completes a survey's window. -/
def switchingAtEnd : State := { switching with survey := { Survey.reset with state := .running, window := 1 } }

theorem witness_switch_at_window_end :
    BoundaryComes switchingAtEnd ∧ switchingAtEnd.plans.switch = .pending 1 .firm ∧ WindowEnds switchingAtEnd.survey
      ∧ (⟨.beforePlan, .first, false⟩ : BoundaryOrder).survey ≠ .alone := by unfold BoundaryComes WindowEnds; decide +kernel

theorem test_switch_and_survey_post_in_either_order :
    ((after (.cycleBoundary ⟨.beforePlan, .first, false⟩) switchingAtEnd).notices.records.map NoticeRecord.kind)
        = [.restarted, .surveyDone, .planSwitched]
      ∧ ((after (.cycleBoundary ⟨.beforePlan, .last, false⟩) switchingAtEnd).notices.records.map NoticeRecord.kind)
        = [.restarted, .planSwitched, .surveyDone] := by decide +kernel
theorem test_switch_reported_by_order :
    (after (.cycleBoundary ⟨.beforePlan, .last, false⟩) switchingAtEnd).survey.planSwitched = false
      ∧ (after (.cycleBoundary ⟨.afterPlan, .last, false⟩) switchingAtEnd).survey.planSwitched = true := by decide +kernel

theorem witness_trial_counts :
    BoundaryComes (atBoundary { loaded with plans := { loaded.plans with switch := .trial 2 1 } }) ∧ 2 ≤ (2 : BitVec 16).toNat := by
  unfold BoundaryComes; decide +kernel

theorem witness_trial_reverts :
    BoundaryComes (atBoundary { loaded with plans := { loaded.plans with switch := .trial 1 1 } })
      ∧ (atBoundary { loaded with plans := { loaded.plans with switch := .trial 1 1 } }).plans.switch = .trial 1 1 := by
  unfold BoundaryComes; decide +kernel

theorem witness_timers_rise :
    BoundaryComes (atBoundary (withRecords [record .restarted (.sent 255) 1, { record .portChange (.sent 31) 1 with number := 2 }] base))
      ∧ base.plans.switch = .steady ∧ base.survey.state = .idle
      ∧ (31 : Byte).toNat + 1 = base.notices.interval.toNat := by unfold BoundaryComes; decide +kernel

theorem witness_notices_still_due :
    dueNotice.pins.hardReset = none ∧ (withNoticesDue true dueNotice).scheduler.due.scheduler = false
      ∧ (withNoticesDue true dueNotice).scheduler.due.notices = true ∧ dueNotice.scheduler.position = 0
      ∧ 1 < dueNotice.plans.running.length ∧ loaded.pins.hardReset = none ∧ loaded.scheduler.position ≠ 0
      ∧ (withNoticesDue true loaded).scheduler.due.scheduler = false := by decide +kernel
theorem test_record_sent_in_slot_0_counts_late_boundary :
    (after .slot (after .slot (withNoticesDue true dueNotice))).notices.records
      = [record .restarted (.sent 32) 1, { record .portChange (.sent 1) 1 with number := 2 }] := by decide +kernel

/-- A survey of a state, window and cycle count at a boundary in STEADY. -/
def surveying (state : SurveyState) (window cycles : BitVec 16) : State :=
  atBoundary { base with survey := { Survey.reset with state := state, window := window, cycles := cycles } }

theorem witness_survey_at_boundary :
    BoundaryComes (surveying .armed 3 0) ∧ (surveying .armed 3 0).plans.switch = .steady
      ∧ BoundaryComes (surveying .running 0 65535) ∧ BoundaryComes (surveying .running 3 1)
      ∧ saturate16 (surveying .running 3 1).survey.cycles ≠ (surveying .running 3 1).survey.window
      ∧ BoundaryComes (surveying .done 3 3) := by unfold BoundaryComes; decide +kernel

theorem witness_survey_window_ends :
    BoundaryComes (surveying .running 65535 65534)
      ∧ saturate16 (surveying .running 65535 65534).survey.cycles = (surveying .running 65535 65534).survey.window := by
  unfold BoundaryComes; decide +kernel

theorem witness_survey_takes_boundary_alone :
    (after (.cycleBoundary ⟨.late, .last, false⟩) (surveying .armed 3 0)).pins.hardReset = none
      ∧ (after (.cycleBoundary ⟨.late, .last, false⟩) (surveying .armed 3 0)).scheduler.due
        = { scheduler := false, plan := false, notices := false, survey := true } := by decide +kernel

theorem test_survey_armed_after_switch_starts_in_slot_0 :
    (after .slot (after (.cycleBoundary ⟨.late, .last, false⟩) (surveying .armed 3 0))).survey
      = { Survey.reset with state := .running, window := 3, management := 1 } := by decide +kernel

theorem witness_window_ends_in_slot_0 :
    WindowEnds (after (.cycleBoundary ⟨.late, .last, false⟩) (surveying .running 3 2)).survey
      ∧ (after (.cycleBoundary ⟨.late, .last, false⟩) (surveying .running 3 2)).scheduler.due.survey = true
      ∧ (after (.cycleBoundary ⟨.late, .last, false⟩) (surveying .running 3 2)).scheduler.due.scheduler = false := by
  unfold WindowEnds; decide +kernel

theorem witness_execution_blocked :
    switching.engine.inProgress ≠ none ∧ 8 ≤ (completed 8).engine.entriesUsed ∧ base.engine.commands = [] := by decide +kernel

/-- A command of a kind the part does not know waits. -/
def unknownGiven : State :=
  { base with engine := { base.engine with commands := [{ kind := 0x42, seq := 1, operands := [], fill := 2 }] } }

theorem witness_unknown_kind :
    unknownGiven.pins.hardReset = none ∧ unknownGiven.engine.inProgress = none ∧ unknownGiven.engine.entriesUsed < 8
      ∧ unknownGiven.engine.commands = { kind := 0x42, seq := 1, operands := [], fill := 2 } :: []
      ∧ ∀ k, (0x42 : Byte) ≠ kindCode k :=
  ⟨rfl, rfl, by decide +kernel, rfl, fun k => by cases k <;> decide⟩

theorem witness_short_operands :
    kindOf .writeSlots = some .writeSlots ∧ (given .writeSlots [0, 24] base).engine.commands = command .writeSlots [0, 24] :: []
      ∧ (command .writeSlots [0, 24]).operands.length < operandsNeeded .writeSlots (command .writeSlots [0, 24]).operands := by
  decide +kernel

theorem witness_completed_at_once :
    Ready .echo (command .echo []) [] (given .echo [] base)
      ∧ ∃ t, exec .echo (given .echo [] base) = .next t ∧ t.engine.inProgress = none :=
  ⟨ready_base (by decide), _, rfl, rfl⟩

theorem witness_echo : Ready .echo (command .echo (List.replicate 30 3)) [] (given .echo (List.replicate 30 3) base) :=
  ready_base (by decide)
theorem witness_identify : Ready .identify (command .identify []) [] (given .identify [] base) := ready_base (by decide)
theorem witness_read_status : Ready .readStatus (command .readStatus []) [] (given .readStatus [] loaded) := ready_loaded (by decide)

theorem witness_restart :
    Ready .restart (command .restart []) [] (given .restart [] loaded) ∧ loaded.channels.wf = true ∧ loaded.notices.counter ≠ 0 :=
  ⟨ready_loaded (by decide), by decide +kernel, by decide +kernel⟩

theorem witness_select_edit_plan :
    Ready .selectEditPlan (command .selectEditPlan [1]) [] (given .selectEditPlan [1] loaded)
      ∧ byteAt (command .selectEditPlan [1]).operands 0 = byteOf (1 : PlanId).val := ⟨ready_loaded (by decide), rfl⟩
theorem witness_select_edit_plan_range :
    Ready .selectEditPlan (command .selectEditPlan [2]) [] (given .selectEditPlan [2] loaded)
      ∧ 1 < (byteAt (command .selectEditPlan [2]).operands 0).toNat := ⟨ready_loaded (by decide), by decide +kernel⟩

theorem editable_given (k : CommandKind) (operands : List Byte) : Editable (given k operands base) :=
  ⟨by show (1 : PlanId) ≠ 0; decide, nofun⟩

theorem witness_write_slots :
    Ready .writeSlots (command .writeSlots [254, 2, 9, 7]) [] (given .writeSlots [254, 2, 9, 7] base)
      ∧ PlanWriteInRange .writeSlots [254, 2, 9, 7] ∧ Editable (given .writeSlots [254, 2, 9, 7] base)
      ∧ (([254, 2, 9, 7] : List Byte).drop 2).take (byteAt [254, 2, 9, 7] 1).toNat = [Owner.openSlot, .trib 7].map Owner.code :=
  ⟨ready_base (by decide), by show _ ∧ _; decide +kernel, editable_given _ _, by decide +kernel⟩

theorem witness_set_cycle_length :
    Ready .setCycleLength (command .setCycleLength [1, 0]) [] (given .setCycleLength [1, 0] base)
      ∧ PlanWriteInRange .setCycleLength [1, 0] ∧ PlanWriteInRange .setCycleLength [0, 8]
      ∧ Editable (given .setCycleLength [1, 0] base) :=
  ⟨ready_base (by decide), by show _ ∧ _; decide +kernel, by show _ ∧ _; decide +kernel, editable_given _ _⟩

theorem witness_write_tributary_entry :
    Ready .writeTributaryEntry (command .writeTributaryEntry [7, 7, 1, 3, 176, 64]) [] (given .writeTributaryEntry [7, 7, 1, 3, 176, 64] base)
      ∧ PlanWriteInRange .writeTributaryEntry [7, 7, 1, 3, 176, 64] ∧ wordAt [7, 7, 1, 3, 176, 64] 3 = (944 : Tag).toNat :=
  ⟨ready_base (by decide), by show _ ∧ _; decide +kernel, by decide +kernel⟩

theorem witness_set_plan_options :
    Ready .setPlanOptions (command .setPlanOptions [0xFF, 1]) [] (given .setPlanOptions [0xFF, 1] base)
      ∧ Ready .setPlanOptions (command .setPlanOptions [7, 0]) [] (given .setPlanOptions [7, 0] base)
      ∧ byteAt [7, 0] 0 = byteOf (7 : Trib).val ∧ byteAt [0xFF, 1] 1 = flagByte true :=
  ⟨ready_base (by decide), ready_base (by decide), rfl, rfl⟩

theorem witness_copy_plan :
    Ready .copyPlan (command .copyPlan []) [] (given .copyPlan [] base) ∧ Editable (given .copyPlan [] base) :=
  ⟨ready_base (by decide), editable_given _ _⟩

theorem witness_plan_write_range :
    Instr.setCycleLength ∈ planWrites ∧ kindOf .setCycleLength = some .setCycleLength
      ∧ Ready .setCycleLength (command .setCycleLength [0, 7]) [] (given .setCycleLength [0, 7] loaded)
      ∧ ¬PlanWriteInRange .setCycleLength [0, 7] :=
  ⟨by decide, rfl, ready_loaded (by decide), fun h => absurd h.1 (by decide +kernel)⟩

theorem witness_plan_write_in_use :
    Ready .copyPlan (command .copyPlan []) [] (given .copyPlan [] loaded) ∧ PlanWriteInRange .copyPlan []
      ∧ ∃ r f, (given .copyPlan [] loaded).plans.switch = .trial r f := ⟨ready_loaded (by decide), trivial, 5, 1, rfl⟩

theorem witness_read_slots :
    Ready .readSlots (command .readSlots [1, 232, 24]) [] (given .readSlots [1, 232, 24] base)
      ∧ (byteAt [1, 232, 24] 1).toNat + (byteAt [1, 232, 24] 2).toNat ≤ 256
      ∧ Ready .readSlots (command .readSlots [1, 233, 24]) [] (given .readSlots [1, 233, 24] base)
      ∧ 256 < (byteAt [1, 233, 24] 1).toNat + (byteAt [1, 233, 24] 2).toNat :=
  ⟨ready_base (by decide), by decide +kernel, ready_base (by decide), by decide +kernel⟩

theorem witness_read_tributary_entry :
    Ready .readTributaryEntry (command .readTributaryEntry [1, 7]) [] (given .readTributaryEntry [1, 7] base)
      ∧ Ready .readTributaryEntry (command .readTributaryEntry [1, 8]) [] (given .readTributaryEntry [1, 8] base)
      ∧ 7 < (byteAt [1, 8] 1).toNat := ⟨ready_base (by decide), ready_base (by decide), by decide +kernel⟩

/-- A state whose plan 1 is as given. -/
def withPlan (p : Plan) : State := { base with plans := { base.plans with plan := base.plans.plan.set 1 p } }

/-- The boot plan with the base of T1 one below the end of T0's range. -/
def overlapping : Plan := { Plan.boot with entries := Plan.boot.entries.set 1 { PlanEntry.boot 1 with tagBase := 63, borrow := false } }

/-- The boot plan with an express tributary that may not borrow. -/
def uselessExpress : Plan :=
  { Plan.boot with entries := Plan.boot.entries.set 1 { PlanEntry.boot 1 with borrow := false }, express := some 1 }

theorem witness_read_plan_options :
    Ready .readPlanOptions (command .readPlanOptions [1]) [] (given .readPlanOptions [1] base)
      ∧ Ready .readPlanOptions (command .readPlanOptions [2]) [] (given .readPlanOptions [2] base)
      ∧ (byteAt [1] 0 = byteOf (1 : PlanId).val) ∧ 1 < (byteAt [2] 0).toNat :=
  ⟨ready_base (by decide), ready_base (by decide), rfl, by decide +kernel⟩

theorem witness_verdicts :
    (∀ k : Fin 8, ({ Plan.boot with slots := Plan.boot.slots.set 0 .openSlot } : Plan).owner k.val ≠ .management)
      ∧ overlapping.owner 0 = .management
      ∧ overlapping.entries[(0 : Trib)].tagBase.toNat < overlapping.entries[(1 : Trib)].tagBase.toNat + 64
      ∧ overlapping.entries[(1 : Trib)].tagBase.toNat < overlapping.entries[(0 : Trib)].tagBase.toNat + 64
      ∧ (∀ i j : Trib, i < j → uselessExpress.entries[j].tagBase.toNat + 64 ≤ uselessExpress.entries[i].tagBase.toNat
          ∨ uselessExpress.entries[i].tagBase.toNat + 64 ≤ uselessExpress.entries[j].tagBase.toNat)
      ∧ uselessExpress.express = some 1 ∧ uselessExpress.entries[(1 : Trib)].borrow = false ∧ Plan.boot.express = none := by
  decide +kernel

theorem witness_switch_plan_range :
    Ready .switchPlan (command .switchPlan [1, 1, 0, 0]) [] (given .switchPlan [1, 1, 0, 0] base)
      ∧ byteAt [1, 1, 0, 0] 1 = 1 ∧ wordAt [1, 1, 0, 0] 2 = 0 := ⟨ready_base (by decide), rfl, rfl⟩

theorem witness_switch_plan_state :
    Ready .switchPlan (command .switchPlan [0, 0, 0, 0]) [] (given .switchPlan [0, 0, 0, 0] base)
      ∧ Ready .switchPlan (command .switchPlan [1, 1, 255, 255]) [] (given .switchPlan [1, 1, 255, 255] loaded)
      ∧ wordAt [1, 1, 255, 255] 2 = (65535 : BitVec 16).toNat
      ∧ ∃ r f, (given .switchPlan [1, 1, 255, 255] loaded).plans.switch = .trial r f :=
  ⟨ready_base (by decide), ready_loaded (by decide), by decide +kernel, 5, 1, rfl⟩

theorem witness_switch_plan_invalid :
    Ready .switchPlan (command .switchPlan [1, 0, 0, 0]) [] (given .switchPlan [1, 0, 0, 0] (withPlan overlapping))
      ∧ (withPlan overlapping).plans.plan[(1 : PlanId)].fault = some .tagOverlap
      ∧ ∀ r f, (given .switchPlan [1, 0, 0, 0] (withPlan overlapping)).plans.switch ≠ .trial r f :=
  ⟨ready_given rfl rfl (by show (0 : Nat) < 8; decide) (by decide), by decide +kernel, nofun⟩

theorem witness_switch_plan_pends :
    Ready .switchPlan (command .switchPlan [1, 1, 0, 1]) [] (given .switchPlan [1, 1, 0, 1] base)
      ∧ base.plans.plan[(1 : PlanId)].fault = none ∧ wordAt [1, 1, 0, 1] 2 = (1 : BitVec 16).toNat :=
  ⟨ready_base (by decide), by decide +kernel, by decide +kernel⟩

theorem test_switch_plan_executes :
    (after .switchPlan (given .switchPlan [1, 1, 0, 1] base)).engine.lastTaken = some (7, .executing) := by decide +kernel

theorem witness_confirm_plan :
    Ready .confirmPlan (command .confirmPlan []) [] (given .confirmPlan [] loaded) ∧ loaded.plans.switch = .trial 5 1
      ∧ Ready .confirmPlan (command .confirmPlan []) [] (given .confirmPlan [] base) ∧ base.plans.switch = .steady :=
  ⟨ready_loaded (by decide), rfl, ready_base (by decide), rfl⟩

theorem witness_write_port_settings :
    Ready .writePort (command .writePort [0, 1, 64, 64, 0, 128]) [] (given .writePort [0, 1, 64, 64, 0, 128] loaded)
      ∧ PortOperands 0 ⟨true, 64, 64, 0, 128⟩ [0, 1, 64, 64, 0, 128]
      ∧ RoomFor (loaded.ports.table.set 0 ⟨true, 64, 64, 0, 128⟩) loaded ∧ true = loaded.ports.table[(0 : Trib)].enable :=
  ⟨ready_loaded (by decide), by unfold PortOperands portEntryOk; decide +kernel, by unfold RoomFor; decide +kernel, by decide +kernel⟩

theorem witness_write_port_range :
    Ready .writePort (command .writePort [0, 1, 33, 32, 0, 128]) [] (given .writePort [0, 1, 33, 32, 0, 128] loaded)
      ∧ PortOperandsBad [0, 1, 33, 32, 0, 128] := ⟨ready_loaded (by decide), by unfold PortOperandsBad; decide +kernel⟩

/-- Seven ports with floors of 24 and 24, and the eighth with floors of 32 and 16: 384 in all. -/
def manyFloors : State :=
  { base with
    ports :=
      { base.ports with
        table := (Vector.replicate 8 { openEntry with upFloor := 24, downFloor := 24 }).set 7 { openEntry with upFloor := 32, downFloor := 16 } } }

theorem witness_write_port_no_room :
    Ready .writePort (command .writePort [7, 1, 32, 32, 17, 32]) [] (given .writePort [7, 1, 32, 32, 17, 32] manyFloors)
      ∧ PortOperands 7 ⟨true, 32, 32, 17, 32⟩ [7, 1, 32, 32, 17, 32]
      ∧ ¬RoomFor (manyFloors.ports.table.set 7 ⟨true, 32, 32, 17, 32⟩) manyFloors :=
  ⟨ready_given rfl rfl (by show (0 : Nat) < 8; decide) (by decide), by unfold PortOperands portEntryOk; decide +kernel,
    by unfold RoomFor; decide +kernel⟩

theorem witness_write_port_enables :
    Ready .writePort (command .writePort [7, 1, 0, 1, 0, 1]) [] (given .writePort [7, 1, 0, 1, 0, 1] base)
      ∧ PortOperands 7 ⟨true, 0, 1, 0, 1⟩ [7, 1, 0, 1, 0, 1] ∧ RoomFor (base.ports.table.set 7 ⟨true, 0, 1, 0, 1⟩) base
      ∧ base.ports.table[(7 : Trib)].enable = false :=
  ⟨ready_base (by decide), by unfold PortOperands portEntryOk; decide +kernel, by unfold RoomFor; decide +kernel, by decide +kernel⟩

theorem witness_write_port_disables :
    Ready .writePort (command .writePort [0, 0, 0, 32, 0, 32]) [] (given .writePort [0, 0, 0, 32, 0, 32] loaded)
      ∧ PortOperands 0 ⟨false, 0, 32, 0, 32⟩ [0, 0, 0, 32, 0, 32] ∧ RoomFor (loaded.ports.table.set 0 ⟨false, 0, 32, 0, 32⟩) loaded
      ∧ loaded.ports.table[(0 : Trib)].enable = true ∧ loaded.channels.wf = true :=
  ⟨ready_loaded (by decide), by unfold PortOperands portEntryOk; decide +kernel, by unfold RoomFor; decide +kernel, by decide +kernel,
    by decide +kernel⟩

theorem witness_read_port :
    Ready .readPort (command .readPort [7]) [] (given .readPort [7] loaded) ∧ byteAt [7] 0 = byteOf (7 : Trib).val
      ∧ Ready .readPort (command .readPort [8]) [] (given .readPort [8] loaded) ∧ 7 < (byteAt [8] 0).toNat :=
  ⟨ready_loaded (by decide), rfl, ready_loaded (by decide), by decide +kernel⟩

theorem witness_read_channel :
    Ready .readChannel (command .readChannel [3, 239]) [] (given .readChannel [3, 239] loaded) ∧ wordAt [3, 239] 0 < 1008
      ∧ Ready .readChannel (command .readChannel [3, 240]) [] (given .readChannel [3, 240] loaded) ∧ 1008 ≤ wordAt [3, 240] 0 :=
  ⟨ready_loaded (by decide), by decide +kernel, ready_loaded (by decide), by decide +kernel⟩

theorem witness_flush_port (side : Byte) :
    Ready .flushPort (command .flushPort [1, side]) [] (given .flushPort [1, side] loaded) ∧ byteAt [1, side] 0 = byteOf (1 : Trib).val
      ∧ byteAt [1, side] 1 = side ∧ loaded.channels.wf = true :=
  ⟨ready_loaded (Nat.le_refl 2), rfl, rfl, by decide +kernel⟩

theorem witness_flush_port_range : 3 < (byteAt [1, 4] 1).toNat ∧ (byteAt [1, 0] 1).toNat = 0 ∧ 7 < (byteAt [8, 3] 0).toNat := by
  decide +kernel

theorem witness_write_channels :
    Ready .writeChannels (command .writeChannels [3, 176, 64, 7, 0, 3]) [] (given .writeChannels [3, 176, 64, 7, 0, 3] loaded)
      ∧ loaded.channels.wf = true ∧ byteAt [3, 176, 64, 7, 0, 3] 5 = PlanMask.both.code
      ∧ wordAt [3, 176, 64, 7, 0, 3] 0 + (byteAt [3, 176, 64, 7, 0, 3] 2).toNat ≤ 1008
      ∧ (byteAt [3, 176, 64, 7, 0, 3] 4).toNat + (byteAt [3, 176, 64, 7, 0, 3] 2).toNat ≤ 64 :=
  ⟨ready_loaded (by decide), by decide +kernel, rfl, by decide +kernel, by decide +kernel⟩

theorem witness_write_channels_range :
    Ready .writeChannels (command .writeChannels [0, 0, 1, 7, 64, 3]) [] (given .writeChannels [0, 0, 1, 7, 64, 3] loaded)
      ∧ 64 < (byteAt [0, 0, 1, 7, 64, 3] 4).toNat + (byteAt [0, 0, 1, 7, 64, 3] 2).toNat :=
  ⟨ready_loaded (by decide), by decide +kernel⟩

theorem witness_counters :
    NamesGroup [1, 7] (.downlink 7) ∧ Ready .readCounters (command .readCounters [1, 7]) [] (given .readCounters [1, 7] base)
      ∧ NamesGroup [3, 0] .management ∧ Ready .clearCounters (command .clearCounters [3, 0]) [] (given .clearCounters [3, 0] base) :=
  ⟨rfl, ready_base (by decide), rfl, ready_base (by decide)⟩

theorem witness_counters_range :
    (∀ g, ¬NamesGroup [2, 1] g) ∧ Ready .readCounters (command .readCounters [2, 1]) [] (given .readCounters [2, 1] base)
      ∧ Ready .clearCounters (command .clearCounters [2, 1]) [] (given .clearCounters [2, 1] base) := by
  refine ⟨fun g => ?_, ready_base (by decide), ready_base (by decide)⟩
  unfold NamesGroup
  cases g with
  | uplink n => revert n; decide
  | downlink n => revert n; decide
  | trunk => decide
  | management => decide

theorem witness_start_survey :
    Ready .startSurvey (command .startSurvey [255, 255]) [] (given .startSurvey [255, 255] base) ∧ base.survey.state = .idle
      ∧ Ready .startSurvey (command .startSurvey [0, 0]) [] (given .startSurvey [0, 0] loaded) ∧ loaded.survey.state = .running :=
  ⟨ready_base (by decide), rfl, ready_loaded (by decide), rfl⟩

theorem witness_stop_survey :
    Ready .stopSurvey (command .stopSurvey []) [] (given .stopSurvey [] (surveying .armed 0 0))
      ∧ (surveying .armed 0 0).survey.window = 0
      ∧ Ready .stopSurvey (command .stopSurvey []) [] (given .stopSurvey [] loaded) ∧ loaded.survey.window ≠ 0 :=
  ⟨ready_given rfl rfl (by show (0 : Nat) < 8; decide) (by decide), rfl, ready_loaded (by decide), by decide +kernel⟩

theorem witness_read_survey :
    Ready .readSurvey (command .readSurvey [1]) [] (given .readSurvey [1] loaded)
      ∧ Ready .readSurvey (command .readSurvey [2]) [] (given .readSurvey [2] loaded)
      ∧ Ready .readSurvey (command .readSurvey [3]) [] (given .readSurvey [3] loaded) ∧ 2 < (byteAt [3] 0).toNat :=
  ⟨ready_loaded (by decide), ready_loaded (by decide), ready_loaded (by decide), by decide +kernel⟩

theorem witness_ack_notice :
    Ready .ackNotice (command .ackNotice [2, 255]) [] (given .ackNotice [2, 255] loaded)
      ∧ loaded.notices.records = [record .restarted .waiting 1] ++ { record .portChange (.sent 5) 255 with number := 2 } :: []
      ∧ (∀ x ∈ [record .restarted .waiting 1] ++ [], x.number ≠ 2) ∧ (254 : Byte).toNat < (255 : Byte).toNat
      ∧ ∀ x ∈ loaded.notices.records, x.number ≠ 3 := ⟨ready_loaded (by decide), by decide +kernel⟩

theorem witness_ack_notice_range :
    Ready .ackNotice (command .ackNotice [0, 1]) [] (given .ackNotice [0, 1] loaded) ∧ byteAt [0, 1] 0 = 0 :=
  ⟨ready_loaded (by decide), rfl⟩

theorem witness_set_notice_options :
    Ready .setNoticeOptions (command .setNoticeOptions [0x07, 0xFE, 1]) [] (given .setNoticeOptions [0x07, 0xFE, 1] base)
      ∧ (0x07FE : BitVec 16) = byteAt [0x07, 0xFE, 1] 0 ++ byteAt [0x07, 0xFE, 1] 1
      ∧ (∀ k : Fin 16, (0x87FE : BitVec 16).getLsbD k = ((0x07FE : BitVec 16).getLsbD k || k.val == 1 || k.val == 15))
      ∧ byteAt [0x07, 0xFE, 1] 2 ≠ 0 ∧ (0x07FE : BitVec 16).getLsbD 0 = false
      ∧ ∀ k : Fin 16, 11 ≤ k.val → k.val ≤ 14 → (0x07FE : BitVec 16).getLsbD k = false :=
  ⟨ready_base (by decide), by decide +kernel⟩

theorem witness_set_notice_options_range :
    Ready .setNoticeOptions (command .setNoticeOptions [0x08, 0x00, 1]) [] (given .setNoticeOptions [0x08, 0x00, 1] base)
      ∧ (0x0800 : BitVec 16).getLsbD 11 = true ∧ (11 : Nat) ≤ 14 := ⟨ready_base (by decide), by decide +kernel⟩

end Sys2Proof.Tests
end

section
/-! PROOFS. The rules of the links: what a receiver, a signal and a port's record of its receiver are after each operation on them, and what
the arrivals, slots, boundaries and commands leave of them. -/

namespace Sys2Proof.Proofs.CellLink

open Sys2Proof.Machine Sys2Proof.Safety Sys2Proof.Laws

/-! ## Receivers and signals -/

@[simp] theorem receiver_setReceiver_same (l : Link) (r : Receiver) (s : State) : receiver l (setReceiver l r s) = r := by
  cases l <;> simp [receiver, setReceiver]

theorem receiver_setReceiver_other {k l : Link} (h : k ≠ l) (r : Receiver) (s : State) :
    receiver k (setReceiver l r s) = receiver k s := by
  cases l with
  | trunk =>
    cases k with
    | trunk => exact absurd rfl h
    | tributary m => rfl
  | tributary n =>
    cases k with
    | trunk => rfl
    | tributary m => exact get_set_other _ (fun e => h (by rw [e])) r

@[simp] theorem receiver_setSignal (k l : Link) (b : Bool) (s : State) : receiver k (setSignal l b s) = receiver k s := by
  cases l <;> cases k <;> rfl

@[simp] theorem hasSignal_setReceiver (k l : Link) (r : Receiver) (s : State) : hasSignal k (setReceiver l r s) = hasSignal k s := by
  cases l <;> cases k <;> rfl

@[simp] theorem hasSignal_setSignal_same (l : Link) (b : Bool) (s : State) : hasSignal l (setSignal l b s) = b := by
  cases l <;> simp [hasSignal, setSignal]

theorem hasSignal_setSignal_other {k l : Link} (h : k ≠ l) (b : Bool) (s : State) :
    hasSignal k (setSignal l b s) = hasSignal k s := by
  cases l with
  | trunk =>
    cases k with
    | trunk => exact absurd rfl h
    | tributary m => rfl
  | tributary n =>
    cases k with
    | trunk => rfl
    | tributary m => exact get_set_other _ (fun e => h (by rw [e])) b

theorem receiver_congr {s t : State} (h : t.links = s.links) (l : Link) : receiver l t = receiver l s := by
  cases l <;> simp [receiver, h]

theorem hasSignal_congr {s t : State} (h : t.links = s.links) (l : Link) : hasSignal l t = hasSignal l s := by
  cases l <;> simp [hasSignal, h]

/-- Neither a receiver nor a signal is a transmitter (R13). -/
@[simp] theorem setReceiver_transmitters (l : Link) (r : Receiver) (s : State) :
    (setReceiver l r s).links.trunkTx = s.links.trunkTx ∧ (setReceiver l r s).links.tribTx = s.links.tribTx := by
  cases l <;> exact ⟨rfl, rfl⟩

@[simp] theorem setSignal_transmitters (l : Link) (b : Bool) (s : State) :
    (setSignal l b s).links.trunkTx = s.links.trunkTx ∧ (setSignal l b s).links.tribTx = s.links.tribTx := by
  cases l <;> exact ⟨rfl, rfl⟩

theorem setReceiver_eq (l : Link) (r : Receiver) (s : State) :
    setReceiver l r s = { s with links := (setReceiver l r s).links } := by
  cases l <;> rfl

theorem setSignal_eq (l : Link) (b : Bool) (s : State) : setSignal l b s = { s with links := (setSignal l b s).links } := by
  cases l <;> rfl

theorem testing_iff {l : Link} {d : Delineation} {s : State} :
    testing l d s = true ↔ hasSignal l s = true ∧ (receiver l s).delineation = d := by
  simp [testing]

/-! ## Ports under arrivals: the table and the records of the receivers stand, only the ingress record moves -/

@[simp] theorem startMessage_records (n : Trib) (c : Cell) (s : State) :
    (startMessage n c s).ports.rxLocked = s.ports.rxLocked ∧ (startMessage n c s).ports.table = s.ports.table := by
  simp [startMessage]

@[simp] theorem giveUpAt_records (n : Trib) (cause : CutCause) (c : Cell) (s : State) :
    (giveUpAt n cause c s).ports.rxLocked = s.ports.rxLocked ∧ (giveUpAt n cause c s).ports.table = s.ports.table := by
  simp [giveUpAt]

@[simp] theorem continueMessage_records (n : Trib) (tag : Tag) (channel : Channel) (limit admitted : Nat) (next : Index) (c : Cell)
    (s : State) :
    (continueMessage n tag channel limit admitted next c s).ports.rxLocked = s.ports.rxLocked
      ∧ (continueMessage n tag channel limit admitted next c s).ports.table = s.ports.table := by
  unfold continueMessage
  repeat' split
  all_goals simp

@[simp] theorem malformedUp_records (n : Trib) (s : State) :
    (malformedUp n s).ports.rxLocked = s.ports.rxLocked ∧ (malformedUp n s).ports.table = s.ports.table := by
  unfold malformedUp
  split <;> simp

@[simp] theorem ingressIdle_records (n : Trib) (c : Cell) (s : State) :
    (ingressIdle n c s).ports.rxLocked = s.ports.rxLocked ∧ (ingressIdle n c s).ports.table = s.ports.table := by
  unfold ingressIdle
  split <;> simp

@[simp] theorem ingressOpen_records (n : Trib) (tag : Tag) (channel : Channel) (limit admitted : Nat) (next : Index) (c : Cell)
    (s : State) :
    (ingressOpen n tag channel limit admitted next c s).ports.rxLocked = s.ports.rxLocked
      ∧ (ingressOpen n tag channel limit admitted next c s).ports.table = s.ports.table := by
  unfold ingressOpen
  split <;> simp

@[simp] theorem ingressDiscarding_records (n : Trib) (c : Cell) (s : State) :
    (ingressDiscarding n c s).ports.rxLocked = s.ports.rxLocked ∧ (ingressDiscarding n c s).ports.table = s.ports.table := by
  unfold ingressDiscarding
  split <;> simp

/-- An arrival from a tributary moves no port's settings and no record of a receiver (R36, R39). -/
@[simp] theorem tribArrival_records (n : Trib) (c : Cell) (s : State) :
    (tribArrival n c s).ports.rxLocked = s.ports.rxLocked ∧ (tribArrival n c s).ports.table = s.ports.table := by
  unfold tribArrival
  repeat' split
  all_goals simp

@[simp] theorem endIngress_records (n : Trib) (s : State) :
    (endIngress n s).ports.rxLocked = s.ports.rxLocked ∧ (endIngress n s).ports.table = s.ports.table := by
  unfold endIngress
  split <;> simp

@[simp] theorem flushUplink_records (n : Trib) (s : State) :
    (flushUplink n s).ports.rxLocked = s.ports.rxLocked ∧ (flushUplink n s).ports.table = s.ports.table := by
  unfold flushUplink
  split <;> simp

@[simp] theorem disableTraffic_records (n : Trib) (s : State) :
    (disableTraffic n s).ports.rxLocked = s.ports.rxLocked ∧ (disableTraffic n s).ports.table = s.ports.table := by
  simp [disableTraffic]

/-- A lock loss clears the port's record of its receiver, whatever the port's state (R36, R38). -/
@[simp] theorem portLockLost_rxLocked (turn : Turn) (n : Trib) (s : State) :
    (portLockLost turn n s).ports.rxLocked = s.ports.rxLocked.set n false := by
  unfold portLockLost
  split
  · exact postBeside_cases (motive := fun t => t.ports.rxLocked = s.ports.rxLocked.set n false) (by simp) (by simp)
  · rfl

/-- New port settings do not touch the records of the receivers (R36, R50). -/
@[simp] theorem applyPortEntry_rxLocked (turn : Turn) (n : Trib) (e : PortEntry) (s : State) :
    (applyPortEntry turn n e s).ports.rxLocked = s.ports.rxLocked := by
  unfold applyPortEntry
  dsimp only
  split
  · exact postBeside_cases (motive := fun t => t.ports.rxLocked = s.ports.rxLocked) (by simp) (by simp)
  · exact postBeside_cases (motive := fun t => t.ports.rxLocked = s.ports.rxLocked) (by simp) (by simp)

/-! ## Trunk arrivals: what the store takes between two offers is the only way into the links and ports -/

section TrunkArrival

variable {inv : State → Prop} {between : State → State}

theorem continueDown_keeps (hb : ∀ s, inv s → inv (between s))
    (move : ∀ s t, t.links = s.links → t.pins = s.pins → t.ports = s.ports → inv s → inv t)
    (tag : Tag) (n : Trib) (channel : Channel) (next : Index) (c : Cell) {s : State} (h : inv s) :
    inv (continueDown between tag n channel next c s) := by
  unfold continueDown
  dsimp only
  split
  · split
    · exact move _ _ (by simp) (by simp) (by simp) h
    · exact move _ _ (by simp) (by simp) (by simp) h
  · split
    · exact move _ _ (by simp) (by simp) (by simp) h
    · split
      · have refused : inv (giveUpDown tag n channel next (offerDown n { c with tag := channel.setWidth 10 } s)) :=
          move _ _ (by simp) (by simp) (by simp) h
        exact move (between _) _ (by simp) (by simp) (by simp) (hb _ refused)
      · exact move _ _ (by simp) (by simp) (by simp) h

theorem channelArrival_keeps (hb : ∀ s, inv s → inv (between s))
    (move : ∀ s t, t.links = s.links → t.pins = s.pins → t.ports = s.ports → inv s → inv t)
    (c : Cell) {s : State} (h : inv s) : inv (channelArrival between c s) := by
  unfold channelArrival
  split
  case h_5 | h_6 => exact continueDown_keeps hb move _ _ _ _ _ h
  all_goals exact move _ _ (by simp) (by simp) (by simp) h

/-- A law that reads only the links, the pins and the ports outlives a trunk arrival when it outlives what the store takes between two offers
(R107, R116). -/
theorem trunkArrival_keeps (hb : ∀ s, inv s → inv (between s))
    (move : ∀ s t, t.links = s.links → t.pins = s.pins → t.ports = s.ports → inv s → inv t)
    (c : Cell) {s : State} (h : inv s) : inv (trunkArrival between c s) := by
  unfold trunkArrival
  split
  · split
    · exact channelArrival_keeps hb move c h
    · exact move _ _ (by simp) (by simp) (by simp) h
  · split
    · exact move _ _ (by simp) (by simp) (by simp) h
    · split
      · exact h
      · exact move _ _ (by simp) (by simp) (by simp) h

end TrunkArrival

/-- A trunk arrival with nothing between its offers leaves the links, the pins and the ports (R107). -/
theorem trunkArrival_id_leaves (c : Cell) (s : State) :
    (trunkArrival id c s).links = s.links ∧ (trunkArrival id c s).pins = s.pins ∧ (trunkArrival id c s).ports = s.ports :=
  trunkArrival_keeps (inv := fun t => t.links = s.links ∧ t.pins = s.pins ∧ t.ports = s.ports) (fun _ h => h)
    (fun _ _ hl hp hr h => ⟨hl.trans h.1, hp.trans h.2.1, hr.trans h.2.2⟩) c ⟨rfl, rfl, rfl⟩

/-- An idle cell is handed to no block (R6). -/
theorem handOn_of_idle {c : Cell} (h : c.tag = idleTag) (between : State → State) (l : Link) (s : State) : handOn between l c s = s := by
  simp [handOn, h]

/-- A cell handed on moves no receiver, signal, transmitter or pin, no port's settings and no record of a receiver (R12). -/
theorem handOn_id_leaves (l : Link) (c : Cell) (s : State) :
    (handOn id l c s).links = s.links ∧ (handOn id l c s).pins = s.pins
      ∧ (handOn id l c s).ports.rxLocked = s.ports.rxLocked ∧ (handOn id l c s).ports.table = s.ports.table := by
  unfold handOn
  split
  · exact ⟨rfl, rfl, rfl, rfl⟩
  · cases l with
    | trunk =>
      obtain ⟨hl, hp, hr⟩ := trunkArrival_id_leaves c s
      exact ⟨hl, hp, by rw [hr], by rw [hr]⟩
    | tributary n => simp

end Sys2Proof.Proofs.CellLink
end

section
/-! PROOFS. What slots, boundaries, cell times and the executions of commands leave of the links, the pins and the ports. -/

namespace Sys2Proof.Proofs.CellLink

open Sys2Proof.Machine Sys2Proof.Safety Sys2Proof.Laws

/-! ## Slots, boundaries and cell times -/

/-- A take of Un reaches the cell store alone (R23). -/
theorem takeUp_leaves {n : Trib} {s t : State} {c : Cell} (h : takeUp n s = some (c, t)) :
    t.links = s.links ∧ t.pins = s.pins ∧ t.ports = s.ports := by
  obtain ⟨rest, -, rfl⟩ := takeUp_eq_some h
  exact ⟨rfl, rfl, rfl⟩

@[simp] theorem afterSend_leaves (n : Trib) (c : Cell) (s : State) :
    (afterSend n c s).links = s.links ∧ (afterSend n c s).pins = s.pins ∧ (afterSend n c s).ports = s.ports := by
  unfold afterSend
  split <;> simp

@[simp] theorem sendAbandon_leaves (e : AbandonEntry) (rest : List AbandonEntry) (s : State) :
    (sendAbandon e rest s).state.links = s.links ∧ (sendAbandon e rest s).state.pins = s.pins
      ∧ (sendAbandon e rest s).state.ports = s.ports := by
  simp [sendAbandon]

@[simp] theorem decideSpare_leaves (s : State) :
    (decideSpare s).state.links = s.links ∧ (decideSpare s).state.pins = s.pins ∧ (decideSpare s).state.ports = s.ports := by
  unfold decideSpare
  split
  · simp
  · dsimp only
    split
    · simp
    · split
      · next h => simpa using takeUp_leaves h
      · simp

@[simp] theorem decideOwn_leaves (n : Trib) (s : State) :
    (decideOwn n s).state.links = s.links ∧ (decideOwn n s).state.pins = s.pins ∧ (decideOwn n s).state.ports = s.ports := by
  unfold decideOwn
  split
  · simp
  · split
    · next h => simpa using takeUp_leaves h
    · simp

@[simp] theorem decideManagement_leaves (s : State) :
    (decideManagement s).state.links = s.links ∧ (decideManagement s).state.pins = s.pins
      ∧ (decideManagement s).state.ports = s.ports := by
  unfold decideManagement
  split
  · simp
  · split <;> simp

/-- The decision of a slot reaches no link, pin or port; its cell goes to the transmitter after it (R83 to R86). -/
@[simp] theorem decideSlot_leaves (o : Owner) (s : State) :
    (decideSlot o s).state.links = s.links ∧ (decideSlot o s).state.pins = s.pins ∧ (decideSlot o s).state.ports = s.ports := by
  cases o <;> simp [decideSlot]

@[simp] theorem advanceSlot_leaves (length : Nat) (s : State) :
    (advanceSlot length s).links = s.links ∧ (advanceSlot length s).pins = s.pins ∧ (advanceSlot length s).ports = s.ports := by
  unfold advanceSlot
  split <;> simp

@[simp] theorem settleNotices_leaves (s : State) :
    (settleNotices s).links = s.links ∧ (settleNotices s).pins = s.pins ∧ (settleNotices s).ports = s.ports := by
  unfold settleNotices
  split <;> simp [noticesTakeBoundary_leaves]

/-- A slot moves nothing of the links but the trunk transmitter, and no pin or port (R83). -/
theorem slotEvent_leaves (s : State) :
    (slotEvent s).links = { s.links with trunkTx := (slotEvent s).links.trunkTx }
      ∧ (slotEvent s).pins = s.pins ∧ (slotEvent s).ports = s.ports := by
  unfold slotEvent
  split
  · exact ⟨rfl, rfl, rfl⟩
  · simp [carrySlot, surveyTakesBoundary_leaves]

theorem planAndSurvey_leaves {turn : Turn} {taking : State → State}
    (h : ∀ s, (taking s).links = s.links ∧ (taking s).pins = s.pins ∧ (taking s).ports = s.ports) (s : State) :
    (planAndSurvey turn taking s).links = s.links ∧ (planAndSurvey turn taking s).pins = s.pins
      ∧ (planAndSurvey turn taking s).ports = s.ports := by
  unfold planAndSurvey
  exact postBeside_cases (motive := fun t => t.links = s.links ∧ t.pins = s.pins ∧ t.ports = s.ports)
    (by simp [h]) (by simp [h])

theorem deliverBoundary_leaves {blocks : State → State}
    (h : ∀ s, (blocks s).links = s.links ∧ (blocks s).pins = s.pins ∧ (blocks s).ports = s.ports) (noticesLate : Bool) (s : State) :
    (deliverBoundary noticesLate blocks s).links = s.links ∧ (deliverBoundary noticesLate blocks s).pins = s.pins
      ∧ (deliverBoundary noticesLate blocks s).ports = s.ports := by
  unfold deliverBoundary
  dsimp only
  repeat' split
  all_goals simp [h, noticesTakeBoundary_leaves]

/-- A boundary reaches no link, pin or port (R82). -/
theorem boundaryEvent_leaves (order : BoundaryOrder) (s : State) :
    (boundaryEvent order s).links = s.links ∧ (boundaryEvent order s).pins = s.pins ∧ (boundaryEvent order s).ports = s.ports := by
  unfold boundaryEvent
  split
  · simp [surveyTakesBoundary_leaves]
  · exact deliverBoundary_leaves
      (planAndSurvey_leaves fun s => by simp [plansTakeBoundary_leaves, surveyCountsBoundary_eq]) _ s
  · exact deliverBoundary_leaves
      (planAndSurvey_leaves fun s => by simp [plansTakeBoundary_leaves, surveyCountsBoundary_eq]) _ s
  · exact deliverBoundary_leaves (fun s => by simp [plansTakeBoundary_leaves]) _ s

theorem revertEvent_leaves (s : State) :
    (revertEvent s).links = s.links ∧ (revertEvent s).pins = s.pins ∧ (revertEvent s).ports = s.ports := by
  unfold revertEvent
  split <;> simp [plansTakeBoundary_leaves]

theorem expiryEvent_leaves (s : State) :
    (expiryEvent s).links = s.links ∧ (expiryEvent s).pins = s.pins ∧ (expiryEvent s).ports = s.ports := by
  unfold expiryEvent
  split <;> simp [noticesTakeBoundary_leaves]

theorem surveyDoneEvent_leaves (s : State) :
    (surveyDoneEvent s).links = s.links ∧ (surveyDoneEvent s).pins = s.pins ∧ (surveyDoneEvent s).ports = s.ports := by
  unfold surveyDoneEvent
  split <;> simp [surveyTakesBoundary_leaves]

/-- A cell time moves nothing of the links but the transmitter of its tributary, and no pin or port (R48). -/
theorem cellTimeEvent_leaves (n : Trib) (s : State) :
    (cellTimeEvent n s).links = { s.links with tribTx := (cellTimeEvent n s).links.tribTx }
      ∧ (cellTimeEvent n s).pins = s.pins ∧ (cellTimeEvent n s).ports = s.ports := by
  unfold cellTimeEvent
  split
  · split
    · next h =>
      obtain ⟨-, -, rfl⟩ := takeDown_eq_some h
      simp
    · simp
  · simp

/-! ## Executions -/

/-- A part of the state outside the engine that the work of a command leaves is left by its execution (R133). -/
theorem runCommand_keeps {α : Type} {field : State → α} (outside : ∀ s e, field { s with engine := e } = field s)
    {k : CommandKind} {work : TakenCommand → State → State} (hw : ∀ c s, field (work c s) = field s) (s : State) :
    field (runCommand k work s) = field s :=
  runCommand_cases (motive := fun t => field t = field s) rfl
    (fun _ rest _ => (outside (beginCommand rest s) _).trans (outside s _))
    (fun c _ _ => (hw c _).trans (outside s _))

theorem runUnknown_keeps {α : Type} {field : State → α} (outside : ∀ s e, field { s with engine := e } = field s) (s : State) :
    field (runUnknown s) = field s :=
  runUnknown_cases (motive := fun t => field t = field s) rfl
    (fun _ rest _ => (outside (beginCommand rest s) _).trans (outside s _))

/-- The blocks that carry cells, and the pins: what a command that reads or sets plans, channels, counters, survey or notices leaves. -/
def carriage (s : State) : Pins × Links × CellStore × Ports × Scheduler := (s.pins, s.links, s.store, s.ports, s.scheduler)

@[simp] theorem carriage_complete (c : TakenCommand) (r : Result) (d : List Byte) (s : State) :
    carriage (complete c r d s) = carriage s := rfl

@[simp] theorem carriage_writeEditPlan (c : TakenCommand) (change : Plan → Plan) (s : State) :
    carriage (writeEditPlan c change s) = carriage s := by
  unfold writeEditPlan
  split <;> rfl

@[simp] theorem carriage_answerRange (c : TakenCommand) (s : State) : carriage (answerRange c s) = carriage s := rfl

theorem carriage_echo (c : TakenCommand) (s : State) : carriage (workEcho c s) = carriage s := rfl

theorem carriage_identify (c : TakenCommand) (s : State) : carriage (workIdentify c s) = carriage s := rfl

theorem carriage_readStatus (c : TakenCommand) (s : State) : carriage (workReadStatus c s) = carriage s := rfl

theorem carriage_selectEditPlan (c : TakenCommand) (s : State) : carriage (workSelectEditPlan c s) = carriage s := by
  unfold workSelectEditPlan
  split <;> rfl

theorem carriage_writeSlots (c : TakenCommand) (s : State) : carriage (workWriteSlots c s) = carriage s := by
  unfold workWriteSlots
  dsimp only
  repeat' split
  all_goals simp

theorem carriage_setCycleLength (c : TakenCommand) (s : State) : carriage (workSetCycleLength c s) = carriage s := by
  unfold workSetCycleLength
  dsimp only
  split <;> simp

theorem carriage_writeTributaryEntry (c : TakenCommand) (s : State) : carriage (workWriteTributaryEntry c s) = carriage s := by
  unfold workWriteTributaryEntry
  split <;> simp

theorem carriage_setPlanOptions (c : TakenCommand) (s : State) : carriage (workSetPlanOptions c s) = carriage s := by
  unfold workSetPlanOptions
  split <;> simp

theorem carriage_copyPlan (c : TakenCommand) (s : State) : carriage (workCopyPlan c s) = carriage s := carriage_writeEditPlan c _ s

theorem carriage_readSlots (c : TakenCommand) (s : State) : carriage (workReadSlots c s) = carriage s := by
  unfold workReadSlots
  dsimp only
  repeat' split
  all_goals simp

theorem carriage_readTributaryEntry (c : TakenCommand) (s : State) : carriage (workReadTributaryEntry c s) = carriage s := by
  unfold workReadTributaryEntry
  split <;> rfl

theorem carriage_readPlanOptions (c : TakenCommand) (s : State) : carriage (workReadPlanOptions c s) = carriage s := by
  unfold workReadPlanOptions
  split <;> rfl

theorem carriage_switchPlan (c : TakenCommand) (s : State) : carriage (workSwitchPlan c s) = carriage s := by
  unfold workSwitchPlan startSwitch
  repeat' split
  all_goals rfl

theorem carriage_confirmPlan (c : TakenCommand) (s : State) : carriage (workConfirmPlan c s) = carriage s := by
  unfold workConfirmPlan
  split <;> rfl

theorem carriage_readPort (c : TakenCommand) (s : State) : carriage (workReadPort c s) = carriage s := by
  unfold workReadPort
  split <;> rfl

theorem carriage_writeChannels (c : TakenCommand) (s : State) : carriage (workWriteChannels c s) = carriage s := by
  unfold workWriteChannels
  dsimp only
  repeat' split
  all_goals rfl

theorem carriage_readChannel (c : TakenCommand) (s : State) : carriage (workReadChannel c s) = carriage s := by
  unfold workReadChannel
  dsimp only
  split <;> rfl

theorem carriage_readCounters (c : TakenCommand) (s : State) : carriage (workReadCounters c s) = carriage s := by
  unfold workReadCounters
  split <;> rfl

theorem carriage_clearCounters (c : TakenCommand) (s : State) : carriage (workClearCounters c s) = carriage s := by
  unfold workClearCounters
  split <;> rfl

theorem carriage_startSurvey (c : TakenCommand) (s : State) : carriage (workStartSurvey c s) = carriage s := by
  unfold workStartSurvey
  dsimp only
  split <;> rfl

theorem carriage_stopSurvey (c : TakenCommand) (s : State) : carriage (workStopSurvey c s) = carriage s := by
  unfold workStopSurvey
  dsimp only
  repeat' split
  all_goals rfl

theorem carriage_readSurvey (c : TakenCommand) (s : State) : carriage (workReadSurvey c s) = carriage s := by
  unfold workReadSurvey
  split <;> rfl

theorem carriage_ackNotice (c : TakenCommand) (s : State) : carriage (workAckNotice c s) = carriage s := by
  unfold workAckNotice
  dsimp only
  repeat' split
  all_goals rfl

theorem carriage_setNoticeOptions (c : TakenCommand) (s : State) : carriage (workSetNoticeOptions c s) = carriage s := by
  unfold workSetNoticeOptions
  dsimp only
  split <;> rfl

/-- The execution of a command leaves the blocks that carry cells and the pins, when its work does. -/
theorem carriage_runCommand {k : CommandKind} {work : TakenCommand → State → State}
    (hw : ∀ c s, carriage (work c s) = carriage s) (s : State) : carriage (runCommand k work s) = carriage s :=
  runCommand_keeps (fun _ _ => rfl) hw s

/-- RESTART leaves the links, the pins and the records of the receivers (R143). -/
theorem workRestart_leaves (c : TakenCommand) (s : State) :
    (workRestart c s).links = s.links ∧ (workRestart c s).pins = s.pins ∧ (workRestart c s).ports.rxLocked = s.ports.rxLocked := by
  simp [workRestart, restartBlocks]

/-- WRITE PORT leaves the links, the pins and the records of the receivers (R50, R51). -/
theorem workWritePort_leaves (turn : Turn) (c : TakenCommand) (s : State) :
    (workWritePort turn c s).links = s.links ∧ (workWritePort turn c s).pins = s.pins
      ∧ (workWritePort turn c s).ports.rxLocked = s.ports.rxLocked := by
  unfold workWritePort
  dsimp only
  repeat' split
  all_goals simp [answerRange]

/-- FLUSH PORT leaves the links, the pins and the records of the receivers (R52). -/
theorem workFlushPort_leaves (c : TakenCommand) (s : State) :
    (workFlushPort c s).links = s.links ∧ (workFlushPort c s).pins = s.pins
      ∧ (workFlushPort c s).ports.rxLocked = s.ports.rxLocked := by
  unfold workFlushPort
  dsimp only
  repeat' split
  all_goals simp [answerRange]

end Sys2Proof.Proofs.CellLink
end

section
/-! PROOFS. The law of receivers, link by link: every step keeps each receiver's count in range, a running receiver without signal in SEEK and
its port's record of it true (section 1.6, R11, R36). -/

namespace Sys2Proof.Proofs.CellLink

open Sys2Proof.Machine Sys2Proof.Safety Sys2Proof.Laws

/-! ## The law of one link -/

/-- What the part records of whether the receiver of a link is LOCKED: the port's record of a tributary, and the trunk receiver's own state
(R36). -/
def lockRecord (l : Link) (s : State) : Bool :=
  match l with
  | .trunk => s.links.trunkRx.delineation == .locked
  | .tributary n => s.ports.rxLocked[n]

/-- The count of a link's receiver in range, the receiver in SEEK while the part runs without signal on its line, and its record true. -/
structure LinkOk (l : Link) (s : State) : Prop where
  count : countOk (receiver l s)
  seeks : s.pins.hardReset = none → hasSignal l s = false → (receiver l s).delineation = .seek
  record : lockRecord l s = ((receiver l s).delineation == .locked)

theorem receiversOk_iff {s : State} : ReceiversOk s ↔ ∀ l, LinkOk l s := by
  constructor
  · rintro ⟨hcount, hseek, hrecord⟩ l
    refine ⟨hcount l, fun hr => hseek hr l, ?_⟩
    cases l with
    | trunk => rfl
    | tributary n => exact hrecord n
  · intro h
    exact ⟨fun l => (h l).count, fun hr l => (h l).seeks hr, fun n => (h (.tributary n)).record⟩

/-- What the law of a link reads. -/
def linkView (l : Link) (s : State) : Receiver × Bool × Bool × Option ResetCause :=
  (receiver l s, hasSignal l s, lockRecord l s, s.pins.hardReset)

theorem LinkOk.of_view {l : Link} {s t : State} (h : LinkOk l s) (hv : linkView l t = linkView l s) : LinkOk l t := by
  simp only [linkView, Prod.mk.injEq] at hv
  obtain ⟨hr, hs, hl, hp⟩ := hv
  obtain ⟨hcount, hseeks, hrecord⟩ := h
  exact ⟨by rwa [hr], by rwa [hr, hs, hp], by rwa [hr, hl]⟩

/-- The transmitters are no part of what the law of a link reads. -/
theorem linkView_congr {s t : State} {trunkTx : Transmitter} {tribTx : Vector Transmitter 8}
    (hl : t.links = { s.links with trunkTx := trunkTx, tribTx := tribTx }) (hp : t.pins = s.pins)
    (hr : t.ports.rxLocked = s.ports.rxLocked) (l : Link) : linkView l t = linkView l s := by
  cases l <;> simp [linkView, receiver, hasSignal, lockRecord, hl, hp, hr]

theorem receiversOk_of_transmitters {s t : State} {trunkTx : Transmitter} {tribTx : Vector Transmitter 8} (h : ReceiversOk s)
    (hl : t.links = { s.links with trunkTx := trunkTx, tribTx := tribTx }) (hp : t.pins = s.pins)
    (hr : t.ports.rxLocked = s.ports.rxLocked) : ReceiversOk t :=
  receiversOk_iff.mpr fun l => (receiversOk_iff.mp h l).of_view (linkView_congr hl hp hr l)

/-- A change that leaves the links, the pins and the records of the receivers keeps the law of receivers. -/
theorem receiversOk_of_leaves {s t : State} (h : ReceiversOk s) (hl : t.links = s.links) (hp : t.pins = s.pins)
    (hr : t.ports.rxLocked = s.ports.rxLocked) : ReceiversOk t :=
  receiversOk_of_transmitters (trunkTx := s.links.trunkTx) (tribTx := s.links.tribTx) h hl hp hr

/-- Every link but one is lawful: what is left of the law of receivers while an event is at work on that link. -/
def OtherLinksOk (l : Link) (s : State) : Prop := ∀ k, k ≠ l → LinkOk k s

theorem otherLinksOk_of_receiversOk {s : State} (h : ReceiversOk s) (l : Link) : OtherLinksOk l s := fun k _ => receiversOk_iff.mp h k

/-- A change of one link keeps the law of receivers when it leaves the link lawful and no other link is concerned. -/
theorem receiversOk_of_link {l : Link} {s t : State} (h : OtherLinksOk l s) (hl : LinkOk l t)
    (others : ∀ k, k ≠ l → linkView k t = linkView k s) : ReceiversOk t := by
  refine receiversOk_iff.mpr fun k => ?_
  by_cases hk : k = l
  · exact hk ▸ hl
  · exact (h k hk).of_view (others k hk)

theorem linkView_setReceiver_other {k l : Link} (h : k ≠ l) (r : Receiver) (s : State) :
    linkView k (setReceiver l r s) = linkView k s := by
  have hrecord : lockRecord k (setReceiver l r s) = lockRecord k s := by
    cases k with
    | trunk =>
      have := receiver_setReceiver_other h r s
      simp only [receiver] at this
      simp only [lockRecord, this]
    | tributary m => simp [lockRecord]
  simp [linkView, receiver_setReceiver_other h, hrecord]

@[simp] theorem lockRecord_setSignal (k l : Link) (b : Bool) (s : State) : lockRecord k (setSignal l b s) = lockRecord k s := by
  cases l <;> cases k <;> rfl

theorem linkView_setSignal_other {k l : Link} (h : k ≠ l) (b : Bool) (s : State) :
    linkView k (setSignal l b s) = linkView k s := by
  simp [linkView, hasSignal_setSignal_other h]

theorem otherLinksOk_setSignal {l : Link} {s : State} (h : ReceiversOk s) (b : Bool) : OtherLinksOk l (setSignal l b s) :=
  fun k hk => (receiversOk_iff.mp h k).of_view (linkView_setSignal_other hk b s)

theorem linkView_setRxLocked_other {k : Link} {n : Trib} (h : k ≠ .tributary n) (b : Bool) (s : State) :
    linkView k (setRxLocked n b s) = linkView k s := by
  cases k with
  | trunk => rfl
  | tributary m =>
    have : (s.ports.rxLocked.set n b)[m] = s.ports.rxLocked[m] := get_set_other _ (fun e => h (by rw [e])) b
    simp only [linkView, lockRecord, setRxLocked_ports, this]
    rfl

/-! ## A receiver moves -/

/-- The record of a link's receiver written by its owner: the trunk receiver is its own record (R12, R36). -/
def recordLock (l : Link) (b : Bool) (s : State) : State :=
  match l with
  | .trunk => s
  | .tributary n => setRxLocked n b s

theorem recordLocked_eq (l : Link) (s : State) : recordLocked l s = recordLock l true s := by
  cases l <;> rfl

@[simp] theorem recordLock_leaves (l : Link) (b : Bool) (s : State) :
    (recordLock l b s).links = s.links ∧ (recordLock l b s).pins = s.pins := by
  cases l <;> exact ⟨rfl, rfl⟩

theorem linkView_recordLock_other {k l : Link} (h : k ≠ l) (b : Bool) (s : State) :
    linkView k (recordLock l b s) = linkView k s := by
  cases l with
  | trunk => rfl
  | tributary n => exact linkView_setRxLocked_other h b s

/-- A receiver moved within its range, by its line's signal, and recorded as it moves, leaves its link lawful. -/
theorem linkOk_recordLock {l : Link} {r : Receiver} {s : State} {b : Bool} (hcount : countOk r)
    (hsignal : s.pins.hardReset = none → hasSignal l s = false → r.delineation = .seek) (hb : b = (r.delineation == .locked)) :
    LinkOk l (recordLock l b (setReceiver l r s)) := by
  subst hb
  have hr : receiver l (recordLock l (r.delineation == .locked) (setReceiver l r s)) = r := by
    rw [receiver_congr (recordLock_leaves _ _ _).1]
    simp
  have hs : hasSignal l (recordLock l (r.delineation == .locked) (setReceiver l r s)) = hasSignal l s := by
    rw [hasSignal_congr (recordLock_leaves _ _ _).1]
    simp
  refine ⟨by rwa [hr], by simpa [hr, hs] using hsignal, ?_⟩
  rw [hr]
  cases l with
  | trunk => rfl
  | tributary n => simp [lockRecord, recordLock]

/-- A receiver that moves without a change of its record leaves its link lawful when the record stays true. -/
theorem linkOk_setReceiver {l : Link} {r : Receiver} {s : State} (h : lockRecord l s = ((receiver l s).delineation == .locked))
    (hcount : countOk r) (hsignal : s.pins.hardReset = none → hasSignal l s = false → r.delineation = .seek)
    (hsame : ((receiver l s).delineation == .locked) = (r.delineation == .locked)) : LinkOk l (setReceiver l r s) := by
  refine ⟨by simpa, by simpa using hsignal, ?_⟩
  cases l with
  | trunk => simp [lockRecord, setReceiver, receiver]
  | tributary n => simpa [lockRecord, hsame] using h

theorem receiversOk_recordLock {l : Link} {r : Receiver} {s : State} {b : Bool} (h : OtherLinksOk l s) (hcount : countOk r)
    (hsignal : s.pins.hardReset = none → hasSignal l s = false → r.delineation = .seek) (hb : b = (r.delineation == .locked)) :
    ReceiversOk (recordLock l b (setReceiver l r s)) :=
  receiversOk_of_link h (linkOk_recordLock hcount hsignal hb) fun _ hk =>
    (linkView_recordLock_other hk _ _).trans (linkView_setReceiver_other hk r s)

/-- A receiver tested on a line with signal, neither entering nor leaving LOCKED. -/
theorem receiversOk_tested {l : Link} {r : Receiver} {s : State} (h : ReceiversOk s) (hsignal : hasSignal l s = true)
    (hcount : countOk r) (hsame : ((receiver l s).delineation == .locked) = (r.delineation == .locked)) :
    ReceiversOk (setReceiver l r s) :=
  receiversOk_of_link (otherLinksOk_of_receiversOk h l)
    (linkOk_setReceiver (receiversOk_iff.mp h l).record hcount (by simp [hsignal]) hsame) fun _ hk => linkView_setReceiver_other hk r s

theorem countOk_seekAt (p : Nat) : countOk (seekAt p) := rfl

/-! ## Header tests and signals keep the law -/

/-- A lock loss reported leaves of the links, the pins and the records what the receiver's own record leaves (R10, R38). -/
theorem reportLockLost_leaves (turn : Turn) (l : Link) (s : State) :
    (reportLockLost turn l s).links = s.links ∧ (reportLockLost turn l s).pins = s.pins
      ∧ (reportLockLost turn l s).ports.rxLocked = (recordLock l false s).ports.rxLocked := by
  cases l <;> simp [reportLockLost, recordLock]

theorem countBadHeader_leaves (l : Link) (s : State) :
    (countBadHeader l s).links = s.links ∧ (countBadHeader l s).pins = s.pins ∧ (countBadHeader l s).ports = s.ports := by
  cases l <;> simp [countBadHeader]

/-- A receiver that returns to SEEK and reports a lock loss (R10, R11). -/
theorem receiversOk_lockLost {s t : State} {l : Link} (h : OtherLinksOk l s) (turn : Turn) (p : Nat)
    (hl : t.links = (setReceiver l (seekAt p) s).links) (hp : t.pins = s.pins) (hr : t.ports.rxLocked = s.ports.rxLocked) :
    ReceiversOk (reportLockLost turn l t) := by
  obtain ⟨hlinks, hpins, hrecord⟩ := reportLockLost_leaves turn l t
  refine receiversOk_of_leaves (receiversOk_recordLock (l := l) (b := false) h (countOk_seekAt p) (fun _ _ => rfl) rfl)
    (hlinks.trans (hl.trans ?_)) (hpins.trans (hp.trans ?_)) (hrecord.trans ?_)
  · simp
  · simp
  · cases l <;> simp [recordLock, hr]

theorem seekTest_keeps (l : Link) (bytes : List Byte) {s : State} (h : ReceiversOk s) : ReceiversOk (seekTest l bytes s) := by
  unfold seekTest
  split
  · next ht =>
    obtain ⟨hsignal, hseek⟩ := testing_iff.mp (Bool.and_eq_true _ _ ▸ ht).1
    dsimp only
    split
    · exact receiversOk_tested h hsignal ⟨Nat.le_refl 1, Nat.le_add_left 1 2⟩ (by simp [hseek])
    · exact receiversOk_tested h hsignal (countOk_seekAt _) (by simp [hseek, seekAt])
  · exact h

theorem enterLocked_keeps (turn : Turn) (l : Link) (bytes : List Byte) {s : State} (h : ReceiversOk s) (hsignal : hasSignal l s = true) :
    ReceiversOk (enterLocked turn l bytes s) := by
  unfold enterLocked
  have locked : ReceiversOk (recordLocked l
      (setReceiver l { delineation := .locked, count := 0, position := (receiver l s).position + Config.cellBytes } s)) := by
    rw [recordLocked_eq]
    exact receiversOk_recordLock (otherLinksOk_of_receiversOk h l) (Nat.zero_le 4) (by simp [hsignal]) rfl
  have handed : ∀ {t : State}, ReceiversOk t → ReceiversOk (handOn id l (decodeCell bytes) t) := fun {t} ht =>
    have ⟨hl, hp, hr, _⟩ := handOn_id_leaves l (decodeCell bytes) t
    receiversOk_of_leaves ht hl hp hr
  have posted : ∀ {t : State} (b a : Ports), ReceiversOk t → ReceiversOk (postLocked l b a t) := fun b a ht =>
    receiversOk_of_leaves ht (by simp) (by simp) (by simp)
  exact postBeside_cases (handed (posted _ _ locked)) (posted _ _ (handed locked))

theorem confirmTest_keeps (turn : Turn) (l : Link) (bytes : List Byte) {s : State} (h : ReceiversOk s) :
    ReceiversOk (confirmTest turn l bytes s) := by
  unfold confirmTest
  split
  · next ht =>
    obtain ⟨hsignal, hconfirm⟩ := testing_iff.mp (Bool.and_eq_true _ _ ▸ ht).1
    dsimp only
    split
    · split
      · next hlt => exact receiversOk_tested h hsignal ⟨Nat.le_add_left 1 _, Nat.le_of_lt_succ hlt⟩ (by simp [hconfirm])
      · exact enterLocked_keeps turn l bytes h hsignal
    · exact receiversOk_tested h hsignal (countOk_seekAt _) (by simp [hconfirm, seekAt])
  · exact h

theorem handOn_keeps {between : State → State} (hb : ∀ s, ReceiversOk s → ReceiversOk (between s)) (l : Link) (c : Cell) {s : State}
    (h : ReceiversOk s) : ReceiversOk (handOn between l c s) := by
  unfold handOn
  split
  · exact h
  · cases l with
    | trunk => exact trunkArrival_keeps hb (fun _ _ hl hp hr h => receiversOk_of_leaves h hl hp (by rw [hr])) c h
    | tributary n => exact receiversOk_of_leaves h (by simp) (by simp) (by simp)

theorem countBadHeader_keeps (l : Link) {s : State} (h : ReceiversOk s) : ReceiversOk (countBadHeader l s) :=
  have ⟨hl, hp, hr⟩ := countBadHeader_leaves l s
  receiversOk_of_leaves h hl hp (by rw [hr])

theorem lockedTestWith_keeps {between : State → State} (hb : ∀ s, ReceiversOk s → ReceiversOk (between s)) (turn : Turn) (l : Link)
    (bytes : List Byte) {s : State} (h : ReceiversOk s) : ReceiversOk (lockedTestWith between turn l bytes s) := by
  unfold lockedTestWith
  split
  · next ht =>
    obtain ⟨hsignal, hlocked⟩ := testing_iff.mp (Bool.and_eq_true _ _ ▸ ht).1
    dsimp only
    split
    · exact handOn_keeps hb l _ (receiversOk_tested h hsignal (Nat.zero_le 4) (by simp [hlocked]))
    · split
      · next hlt =>
        refine countBadHeader_keeps l (receiversOk_tested h hsignal ?_ (by simp [hlocked]))
        exact Nat.le_of_lt_succ hlt
      · obtain ⟨hl, hp, hr⟩ := countBadHeader_leaves l (setReceiver l (seekAt ((receiver l s).position + 1)) s)
        exact receiversOk_lockLost (otherLinksOk_of_receiversOk h l) turn _ hl (hp.trans (by simp)) (by simp [hr])
  · exact h

/-- A line's signal moved during a hard reset asks nothing of its receiver (R11, R16). -/
theorem setSignal_keeps_of_reset {l : Link} {b : Bool} {s : State} (h : ReceiversOk s) (hr : s.pins.hardReset.isSome = true) :
    ReceiversOk (setSignal l b s) := by
  obtain ⟨hcount, -, hrecord⟩ := receiversOk_iff.mp h l
  refine receiversOk_of_link (otherLinksOk_of_receiversOk h l) ?_ fun k hk => linkView_setSignal_other hk b s
  refine ⟨by simpa using hcount, fun hn => ?_, by simpa using hrecord⟩
  simp only [setSignal_leaves] at hn
  simp [hn] at hr

/-- A receiver outside LOCKED that seeks anew while its line's signal moves (R11). -/
theorem receiversOk_seek_setSignal {l : Link} {s : State} (h : ReceiversOk s) (hd : (receiver l s).delineation ≠ .locked) (b : Bool)
    (p : Nat) : ReceiversOk (setReceiver l (seekAt p) (setSignal l b s)) := by
  have hrecord := (receiversOk_iff.mp h l).record
  exact receiversOk_of_link (otherLinksOk_setSignal h b)
    (linkOk_setReceiver (by simpa using hrecord) (countOk_seekAt p) (fun _ _ => rfl) (by simp [hd, seekAt])) fun _ hk =>
    linkView_setReceiver_other hk _ _

theorem signalLossEvent_keeps (turn : Turn) (l : Link) {s : State} (h : ReceiversOk s) : ReceiversOk (signalLossEvent turn l s) := by
  unfold signalLossEvent
  dsimp only
  split
  · next hr => exact setSignal_keeps_of_reset h hr
  · split
    · exact receiversOk_lockLost (otherLinksOk_setSignal h false) turn 0 rfl (by simp) (by simp)
    · next hd => exact receiversOk_seek_setSignal h hd false 0

/-- Signal returns to a running receiver in SEEK, where the loss of signal has left it, or during a hard reset (R11). -/
theorem signalReturnEvent_keeps (l : Link) {s : State} (h : ReceiversOk s) : ReceiversOk (signalReturnEvent l s) := by
  unfold signalReturnEvent
  split
  · exact h
  · next hsignal =>
    split
    · next hr => exact setSignal_keeps_of_reset h hr
    · next hr =>
      have hseek : (receiver l s).delineation = .seek :=
        (receiversOk_iff.mp h l).seeks (by simpa using hr) (by simpa using hsignal)
      exact receiversOk_seek_setSignal h (by simp [hseek]) true 0

/-! ## Every other event -/

theorem slotEvent_keeps {s : State} (h : ReceiversOk s) : ReceiversOk (slotEvent s) :=
  have ⟨hl, hp, hr⟩ := slotEvent_leaves s
  receiversOk_of_transmitters (tribTx := s.links.tribTx) h hl hp (by rw [hr])

theorem cellTimeEvent_keeps (n : Trib) {s : State} (h : ReceiversOk s) : ReceiversOk (cellTimeEvent n s) :=
  have ⟨hl, hp, hr⟩ := cellTimeEvent_leaves n s
  receiversOk_of_transmitters (trunkTx := s.links.trunkTx) h hl hp (by rw [hr])

/-- An event that leaves the links, the pins and the ports. -/
theorem receiversOk_of_event {event : State → State}
    (he : ∀ s, (event s).links = s.links ∧ (event s).pins = s.pins ∧ (event s).ports = s.ports) {s : State} (h : ReceiversOk s) :
    ReceiversOk (event s) :=
  have ⟨hl, hp, hr⟩ := he s
  receiversOk_of_leaves h hl hp (by rw [hr])

/-- An execution whose work leaves the links, the pins and the records of the receivers. -/
theorem runCommand_keeps_receivers {k : CommandKind} {work : TakenCommand → State → State}
    (hw : ∀ c s, (work c s).links = s.links ∧ (work c s).pins = s.pins ∧ (work c s).ports.rxLocked = s.ports.rxLocked) {s : State}
    (h : ReceiversOk s) : ReceiversOk (runCommand k work s) :=
  receiversOk_of_leaves h (runCommand_keeps (fun _ _ => rfl) (fun c s => (hw c s).1) s)
    (runCommand_keeps (fun _ _ => rfl) (fun c s => (hw c s).2.1) s)
    (runCommand_keeps (field := fun s => s.ports.rxLocked) (fun _ _ => rfl) (fun c s => (hw c s).2.2) s)

theorem receiversOk_of_carriage {s t : State} (h : ReceiversOk s) (hc : carriage t = carriage s) : ReceiversOk t := by
  simp only [carriage, Prod.mk.injEq] at hc
  obtain ⟨hp, hl, -, hr, -⟩ := hc
  exact receiversOk_of_leaves h hl hp (by rw [hr])

/-- The execution of a command whose work leaves the blocks that carry cells. -/
theorem command_keeps {k : CommandKind} {work : TakenCommand → State → State} (hw : ∀ c s, carriage (work c s) = carriage s)
    {s : State} (h : ReceiversOk s) : ReceiversOk (runCommand k work s) :=
  receiversOk_of_carriage h (carriage_runCommand hw s)

/-- One event the store takes between two offers keeps the law of receivers (R22, R116). -/
theorem runStoreEvent_keeps (e : StoreEvent) {s : State} (h : ReceiversOk s) : ReceiversOk (runStoreEvent e s) := by
  cases e with
  | slot => exact slotEvent_keeps h
  | cellTime n => exact cellTimeEvent_keeps n h
  | headerTest n bytes turn =>
    simp only [runStoreEvent]
    split
    · exact confirmTest_keeps turn _ bytes h
    · exact lockedTestWith_keeps (fun _ h => h) turn _ bytes h
  | signalLoss n turn => exact signalLossEvent_keeps turn _ h
  | writePort turn => exact runCommand_keeps_receivers (workWritePort_leaves turn) h
  | flushPort => exact runCommand_keeps_receivers workFlushPort_leaves h

theorem runStoreEvents_keeps (events : List StoreEvent) : ∀ {s : State}, ReceiversOk s → ReceiversOk (runStoreEvents events s) := by
  induction events with
  | nil => exact id
  | cons e rest ih => exact fun h => ih (runStoreEvent_keeps e h)

/-- The beginning of a hard reset moves no receiver, and asks nothing of a line without signal (R16). -/
theorem beginHardReset_keeps (cause : ResetCause) {s : State} (h : ReceiversOk s) : ReceiversOk (beginHardReset cause s) := by
  refine receiversOk_iff.mpr fun l => ?_
  obtain ⟨hcount, -, hrecord⟩ := receiversOk_iff.mp h l
  cases l with
  | trunk => exact ⟨hcount, by simp [beginHardReset], hrecord⟩
  | tributary n => exact ⟨hcount, by simp [beginHardReset], hrecord⟩

theorem receiver_afterHardReset (cause : ResetCause) (trunkSignal : Bool) (tribSignal : Vector Bool 8) (waiting : List Instr)
    (l : Link) : receiver l (.afterHardReset cause trunkSignal tribSignal waiting) = .reset := by
  cases l <;> simp [receiver, State.afterHardReset, Links.reset]

/-- A hard reset leaves every receiver in SEEK with count 0, recorded as not LOCKED (R16, R36). -/
theorem receiversOk_afterHardReset (cause : ResetCause) (trunkSignal : Bool) (tribSignal : Vector Bool 8) (waiting : List Instr) :
    ReceiversOk (.afterHardReset cause trunkSignal tribSignal waiting) := by
  refine ⟨fun l => ?_, fun _ l _ => ?_, fun n => ?_⟩
  · rw [receiver_afterHardReset]
    rfl
  · rw [receiver_afterHardReset]
    rfl
  · rw [receiver_afterHardReset]
    simp [State.afterHardReset, Receiver.reset]

theorem powerOnEvent_keeps {s : State} (h : ReceiversOk s) : ReceiversOk (powerOnEvent s) :=
  beginHardReset_keeps _ h

theorem resetNEvent_keeps {s : State} (h : ReceiversOk s) : ReceiversOk (resetNEvent s) := by
  unfold resetNEvent
  dsimp only
  split
  · exact beginHardReset_keeps _ h
  · exact h

theorem hardResetEndEvent_keeps {s : State} (h : ReceiversOk s) : ReceiversOk (hardResetEndEvent s) := by
  unfold hardResetEndEvent
  split
  · exact receiversOk_afterHardReset ..
  · exact h

/-! ## Every step -/

/-- An event of the running part that keeps the law of receivers keeps it as a command. -/
theorem running_keeps {event : State → State} (he : ∀ {s}, ReceiversOk s → ReceiversOk (event s)) {s : State} (h : ReceiversOk s) :
    ReceiversOk (whileRunning s event) :=
  whileRunning_cases h fun _ => he h

theorem exec_keeps_receivers (i : Instr) (s t : State) (h : ReceiversOk s) (ht : exec i s = .next t) : ReceiversOk t := by
  cases i <;> injection ht with ht <;> subst ht
  case powerOn => exact powerOnEvent_keeps h
  case resetN => exact resetNEvent_keeps h
  case hardResetEnd => exact hardResetEndEvent_keeps h
  case signalLoss l turn => exact signalLossEvent_keeps turn l h
  case signalReturn l => exact signalReturnEvent_keeps l h
  case seekHeaderTest l bytes => exact running_keeps (seekTest_keeps l bytes) h
  case confirmHeaderTest l bytes turn => exact running_keeps (confirmTest_keeps turn l bytes) h
  case lockedHeaderTest l bytes between turn =>
    exact running_keeps (lockedTestWith_keeps (fun _ => runStoreEvents_keeps between) turn l bytes) h
  case slot => exact running_keeps slotEvent_keeps h
  case cycleBoundary order => exact running_keeps (receiversOk_of_event (boundaryEvent_leaves order)) h
  case planReverted => exact running_keeps (receiversOk_of_event revertEvent_leaves) h
  case noticeRepeatExpiry => exact running_keeps (receiversOk_of_event expiryEvent_leaves) h
  case surveyDone => exact running_keeps (receiversOk_of_event surveyDoneEvent_leaves) h
  case tributaryCellTime n => exact running_keeps (cellTimeEvent_keeps n) h
  case unknownKind => exact running_keeps (fun h => receiversOk_of_carriage h (runUnknown_keeps (fun _ _ => rfl) _)) h
  case restart => exact running_keeps (runCommand_keeps_receivers workRestart_leaves) h
  case writePort turn => exact running_keeps (runCommand_keeps_receivers (workWritePort_leaves turn)) h
  case flushPort => exact running_keeps (runCommand_keeps_receivers workFlushPort_leaves) h
  case echo => exact running_keeps (command_keeps carriage_echo) h
  case identify => exact running_keeps (command_keeps carriage_identify) h
  case readStatus => exact running_keeps (command_keeps carriage_readStatus) h
  case selectEditPlan => exact running_keeps (command_keeps carriage_selectEditPlan) h
  case writeSlots => exact running_keeps (command_keeps carriage_writeSlots) h
  case setCycleLength => exact running_keeps (command_keeps carriage_setCycleLength) h
  case writeTributaryEntry => exact running_keeps (command_keeps carriage_writeTributaryEntry) h
  case setPlanOptions => exact running_keeps (command_keeps carriage_setPlanOptions) h
  case copyPlan => exact running_keeps (command_keeps carriage_copyPlan) h
  case readSlots => exact running_keeps (command_keeps carriage_readSlots) h
  case readTributaryEntry => exact running_keeps (command_keeps carriage_readTributaryEntry) h
  case readPlanOptions => exact running_keeps (command_keeps carriage_readPlanOptions) h
  case switchPlan => exact running_keeps (command_keeps carriage_switchPlan) h
  case confirmPlan => exact running_keeps (command_keeps carriage_confirmPlan) h
  case readPort => exact running_keeps (command_keeps carriage_readPort) h
  case writeChannels => exact running_keeps (command_keeps carriage_writeChannels) h
  case readChannel => exact running_keeps (command_keeps carriage_readChannel) h
  case readCounters => exact running_keeps (command_keeps carriage_readCounters) h
  case clearCounters => exact running_keeps (command_keeps carriage_clearCounters) h
  case startSurvey => exact running_keeps (command_keeps carriage_startSurvey) h
  case stopSurvey => exact running_keeps (command_keeps carriage_stopSurvey) h
  case readSurvey => exact running_keeps (command_keeps carriage_readSurvey) h
  case ackNotice => exact running_keeps (command_keeps carriage_ackNotice) h
  case setNoticeOptions => exact running_keeps (command_keeps carriage_setNoticeOptions) h

/-- Settles O3: the law holds link by link, an event at one link leaves what the law reads of every other, and no other event moves a
receiver, a signal or a record. -/
theorem stepKeepsReceivers : Obligations.StepKeepsReceivers := by
  unfold Obligations.StepKeepsReceivers
  intro s t hs h
  exact step_keeps (fun _ _ hs => receiversOk_of_leaves hs rfl rfl rfl) exec_keeps_receivers hs h

end Sys2Proof.Proofs.CellLink
end

section
/-! PROOFS. The layout of a cell on the line read back: each header field from the bytes it was put in, and the payload from the zeros behind
it (R1, R2, R13, R177). -/

namespace Sys2Proof.Proofs.CellLink

open Sys2Proof.Machine

/-! ## Header fields -/

@[simp] theorem ofCode_code (p : Position) : Position.ofCode p.code = p := by
  cases p <;> rfl

theorem byte1_tag (c : Cell) : c.byte1.extractLsb' 6 2 = c.tag.extractLsb' 0 2 := by
  unfold Cell.byte1
  rw [BitVec.extractLsb'_append_eq_of_le (by decide), BitVec.extractLsb'_append_eq_of_le (by decide),
    BitVec.extractLsb'_append_eq_of_le (by decide)]
  exact BitVec.extractLsb'_eq_self

theorem byte1_position (c : Cell) : c.byte1.extractLsb' 4 2 = c.position.code := by
  unfold Cell.byte1
  rw [BitVec.extractLsb'_append_eq_of_le (by decide), BitVec.extractLsb'_append_eq_of_le (by decide)]
  exact BitVec.extractLsb'_append_eq_right

/-- A flag ahead of a field of three bits is bit 3. -/
theorem getLsbD_flag {n : Nat} (x : BitVec n) (b : Bool) (y : BitVec 3) : (x ++ BitVec.ofBool b ++ y).getLsbD 3 = b := by
  rw [BitVec.getLsbD_append, BitVec.getLsbD_append]
  simp

theorem byte1_abandon (c : Cell) : c.byte1.getLsbD 3 = c.abandon := getLsbD_flag (c.tag.extractLsb' 0 2 ++ c.position.code) _ _

theorem byte1_fill (c : Cell) : c.byte1.extractLsb' 0 3 = c.fill.extractLsb' 3 3 := BitVec.extractLsb'_append_eq_right

theorem byte2_fill (c : Cell) : c.byte2.extractLsb' 5 3 = c.fill.extractLsb' 0 3 := by
  unfold Cell.byte2
  rw [BitVec.extractLsb'_append_eq_of_le (by decide)]
  exact BitVec.extractLsb'_eq_self

theorem byte2_index (c : Cell) : c.byte2.extractLsb' 0 5 = c.index := BitVec.extractLsb'_append_eq_right

/-- The tag is cut in two over bytes 0 and 1 (section 10.1). -/
theorem tag_of_bytes (c : Cell) : c.byte0 ++ c.byte1.extractLsb' 6 2 = c.tag := by
  rw [byte1_tag]
  exact BitVec.extractLsb'_append_extractLsb' (w := 8) (len := 2)

/-- The fill is cut in two over bytes 1 and 2 (section 10.1). -/
theorem fill_of_bytes (c : Cell) : c.byte1.extractLsb' 0 3 ++ c.byte2.extractLsb' 5 3 = c.fill := by
  rw [byte1_fill, byte2_fill]
  exact BitVec.extractLsb'_append_extractLsb' (w := 3) (len := 3)

/-! ## The payload -/

theorem meaningful_length_le (fill : Fill) (payload : List Byte) : (meaningful fill payload).length ≤ 32 := by
  simp only [meaningful, Config.payloadBytes, List.length_take]
  omega

theorem padPayload_length {payload : List Byte} (h : payload.length ≤ 32) : (padPayload payload).length = 32 := by
  simp only [padPayload, Config.payloadBytes, List.length_append, List.length_replicate]
  omega

/-- A payload as long as its fill is all meaningful, with zeros behind it or not. -/
theorem meaningful_append {fill : Fill} {payload : List Byte} (hf : fill.toNat ≤ 32) (hp : payload.length = fill.toNat)
    (zeros : List Byte) : meaningful fill (payload ++ zeros) = payload := by
  simp only [meaningful, Config.payloadBytes, List.take_take, Nat.min_eq_left hf]
  exact List.take_left' hp

theorem meaningful_self {fill : Fill} {payload : List Byte} (hf : fill.toNat ≤ 32) (hp : payload.length = fill.toNat) :
    meaningful fill payload = payload := by
  simpa using meaningful_append hf hp []

/-! ## The cell -/

/-- A cell goes onto the line as 36 bytes whatever its fill (R1). -/
theorem wire_length (c : Cell) : c.wire.length = 36 := by
  simp [Cell.wire, padPayload_length (meaningful_length_le c.fill c.payload)]

/-- The check of a cell on the line is computed over its own header (R2, R13). -/
theorem headerValid_wire (c : Cell) : headerValid c.wire = true := by
  simp [headerValid, Cell.wire, byteAt]

theorem decodeCell_wire {c : Cell} (hf : c.fill.toNat ≤ 32) (hp : c.payload.length = c.fill.toNat) : decodeCell c.wire = c := by
  have hbytes : byteAt c.wire 0 = c.byte0 ∧ byteAt c.wire 1 = c.byte1 ∧ byteAt c.wire 2 = c.byte2 := ⟨rfl, rfl, rfl⟩
  have hpayload : c.wire.drop 4 = padPayload c.payload := by
    simp [Cell.wire, meaningful_self hf hp]
  obtain ⟨h0, h1, h2⟩ := hbytes
  simp only [decodeCell, h0, h1, h2, hpayload, tag_of_bytes, byte1_position, ofCode_code, byte1_abandon, fill_of_bytes, byte2_index,
    padPayload, meaningful_append hf hp]

/-- Settles O13: the length and the check hold of every cell, and the fields and payload are read back where they were put. -/
theorem cellSurvivesTheLine : Obligations.CellSurvivesTheLine := by
  unfold Obligations.CellSurvivesTheLine
  exact fun c hf hp => ⟨wire_length c, headerValid_wire c, decodeCell_wire hf hp⟩

end Sys2Proof.Proofs.CellLink
end

section
/-! PROOFS. What each header test does, outcome by outcome, and what the loss and the return of signal do to a receiver that is not LOCKED
(R8 to R12). -/

namespace Sys2Proof.Proofs.CellLink

open Sys2Proof.Machine Sys2Proof.Laws Sys2Proof.Claims

/-! ## The outcomes of a header test -/

theorem testing_of_tests {l : Link} {d : Delineation} {bytes : List Byte} {width : Nat} {s : State} (h : Tests l d bytes width s) :
    testing l d s = true := by
  obtain ⟨-, hsignal, hd, -⟩ := h
  exact testing_iff.mpr ⟨hsignal, hd⟩

theorem exec_seek_of_tests {l : Link} {bytes : List Byte} {s : State} (h : Tests l .seek bytes 4 s) :
    exec (.seekHeaderTest l bytes) s =
      .next (setReceiver l
        (if headerValid bytes then { delineation := .confirm, count := 1, position := (receiver l s).position + 36 }
          else { delineation := .seek, count := 0, position := (receiver l s).position + 1 }) s) := by
  have ht := testing_of_tests h
  obtain ⟨hrun, -, -, hlen⟩ := h
  simp only [exec, execSeekHeaderTest, whileRunning_of_running hrun, seekTest, ht, seekBytesOk, hlen, beq_self_eq_true, Bool.and_true,
    if_true]
  split <;> rfl

section Confirm

variable {l : Link} {bytes : List Byte} {s : State}

theorem exec_confirm_of_tests (h : Tests l .confirm bytes 36 s) (turn : Turn) :
    exec (.confirmHeaderTest l bytes turn) s =
      .next (if headerValid bytes then
          if (receiver l s).count + 1 < 4 then
            setReceiver l
              { delineation := .confirm, count := (receiver l s).count + 1, position := (receiver l s).position + 36 } s
          else enterLocked turn l bytes s
        else setReceiver l { delineation := .seek, count := 0, position := (receiver l s).position + 1 } s) := by
  have ht := testing_of_tests h
  obtain ⟨hrun, -, -, hlen⟩ := h
  simp only [exec, execConfirmHeaderTest, whileRunning_of_running hrun, confirmTest, ht, cellBytesOk, hlen, Config.cellBytes,
    beq_self_eq_true, Bool.and_true, if_true, seekAt]

theorem exec_locked_of_tests (h : Tests l .locked bytes 36 s) (between : List StoreEvent) (turn : Turn) :
    exec (.lockedHeaderTest l bytes between turn) s =
      .next (if headerValid bytes then
          handOn (runStoreEvents between) l (decodeCell bytes)
            (setReceiver l { delineation := .locked, count := 0, position := (receiver l s).position + 36 } s)
        else if (receiver l s).count + 1 < 5 then
          countBadHeader l
            (setReceiver l
              { delineation := .locked, count := (receiver l s).count + 1, position := (receiver l s).position + 36 } s)
        else
          reportLockLost turn l (countBadHeader l (setReceiver l (seekAt ((receiver l s).position + 1)) s))) := by
  have ht := testing_of_tests h
  obtain ⟨hrun, -, -, hlen⟩ := h
  simp only [exec, execLockedHeaderTest, whileRunning_of_running hrun, lockedTest, lockedTestWith, ht, cellBytesOk, hlen,
    Config.cellBytes, beq_self_eq_true, Bool.and_true, if_true]

end Confirm

/-! ## Tests that move the receiver alone -/

theorem onlyReceiver_setReceiver (l : Link) (r : Receiver) (s : State) : OnlyReceiver l s (setReceiver l r s) := by
  obtain ⟨htrunk, htribs⟩ := setReceiver_transmitters l r s
  exact ⟨setReceiver_eq l r s, htrunk, htribs, fun k => hasSignal_setReceiver k l r s, fun k hk => receiver_setReceiver_other hk r s⟩

/-- Settles O14: each test before LOCKED is one move of the receiver. -/
theorem headerTestsBeforeLock : Obligations.HeaderTestsBeforeLock := by
  unfold Obligations.HeaderTestsBeforeLock
  intro l bytes s
  constructor
  · intro h
    exact ⟨_, exec_seek_of_tests h, onlyReceiver_setReceiver l _ s, receiver_setReceiver_same l _ s⟩
  · intro turn h hcount
    rw [exec_confirm_of_tests h turn]
    cases hv : headerValid bytes with
    | true =>
      have hlt : (receiver l s).count + 1 < 4 := Nat.add_lt_add_right (hcount hv) 1
      simp only [hlt, if_true]
      exact ⟨_, rfl, onlyReceiver_setReceiver l _ s, receiver_setReceiver_same l _ s⟩
    | false => exact ⟨_, rfl, onlyReceiver_setReceiver l _ s, receiver_setReceiver_same l _ s⟩

/-- A bad header counted is the counter bank with one cell more discarded for its header (R10). -/
theorem countBadHeader_eq (l : Link) (s : State) : countBadHeader l s = { s with bank := headerDiscarded l s.bank } := by
  cases l <;> rfl

/-- Settles O16: the idle cell is handed to no block, and a bad header reaches the counter bank alone. -/
theorem lockedTestCountsBadHeaders : Obligations.LockedTestCountsBadHeaders := by
  unfold Obligations.LockedTestCountsBadHeaders
  intro l bytes turn between s h
  rw [exec_locked_of_tests h between turn]
  constructor
  · intro hv hidle
    rw [if_pos hv, handOn_of_idle hidle]
    exact ⟨_, rfl, onlyReceiver_setReceiver l _ s, receiver_setReceiver_same l _ s⟩
  · intro hv hcount
    rw [if_neg (by simp [hv]), if_pos (Nat.add_lt_add_right hcount 1), countBadHeader_eq]
    refine ⟨_, rfl, ?_, ?_, fun k hk => ?_⟩
    · exact (receiver_congr rfl l).trans (receiver_setReceiver_same l _ s)
    · simp only [setReceiver_leaves]
    · exact (receiver_congr rfl k).trans (receiver_setReceiver_other hk _ s)

/-! ## Signal -/

theorem exec_signalLoss_of_running {s : State} (hr : s.pins.hardReset = none) (l : Link) (turn : Turn) :
    exec (.signalLoss l turn) s =
      .next (if (receiver l s).delineation = .locked then reportLockLost turn l (setReceiver l (seekAt 0) (setSignal l false s))
        else setReceiver l (seekAt 0) (setSignal l false s)) := by
  simp [exec, execSignalLoss, signalLossEvent, hr]

theorem exec_signalReturn_of_running {s : State} (hr : s.pins.hardReset = none) {l : Link} (hs : hasSignal l s = false) :
    exec (.signalReturn l) s = .next (setReceiver l (seekAt 0) (setSignal l true s)) := by
  simp [exec, execSignalReturn, signalReturnEvent, hr, hs]

/-- A receiver and the signal of its line moved together: both are as they were set, and every other link stands. -/
theorem setReceiver_setSignal (l : Link) (r : Receiver) (b : Bool) (s : State) :
    receiver l (setReceiver l r (setSignal l b s)) = r ∧ hasSignal l (setReceiver l r (setSignal l b s)) = b
      ∧ setReceiver l r (setSignal l b s) = { s with links := (setReceiver l r (setSignal l b s)).links }
      ∧ OtherLinksStand l s (setReceiver l r (setSignal l b s)) := by
  refine ⟨by simp, by simp, by cases l <;> rfl, by simp, by simp, fun k hk => ⟨?_, ?_⟩⟩
  · rw [receiver_setReceiver_other hk, receiver_setSignal]
  · rw [hasSignal_setReceiver, hasSignal_setSignal_other hk]

/-- Settles O19: outside LOCKED the loss and the return of signal each move the line's signal and its receiver, and report nothing. -/
theorem signalOfUnlockedReceiver : Obligations.SignalOfUnlockedReceiver := by
  unfold Obligations.SignalOfUnlockedReceiver
  intro l s hr hd
  have moved (b : Bool) := setReceiver_setSignal l (seekAt 0) b s
  constructor
  · intro turn
    rw [exec_signalLoss_of_running hr, if_neg hd]
    obtain ⟨hreceiver, hsignal, honly, -, -, hothers⟩ := moved false
    exact ⟨_, rfl, hsignal, hreceiver, honly, hothers⟩
  · intro hs
    rw [exec_signalReturn_of_running hr hs]
    obtain ⟨hreceiver, hsignal, honly, -, -, hothers⟩ := moved true
    exact ⟨_, rfl, hsignal, hreceiver, honly, hothers⟩

/-! ## The fourth header -/

theorem runStoreEvents_nil : runStoreEvents [] = id := rfl

/-- The receiver moved on past the cell that completed its count, and recorded LOCKED: the state in which that cell is handed on (R12). -/
theorem recordLocked_setReceiver (l : Link) (s : State) :
    recordLocked l (setReceiver l { delineation := .locked, count := 0, position := (receiver l s).position + 36 } s) =
      { receiverLocked l s with links := headerPassed l s } := by
  cases l <;> rfl

/-- A receiver LOCKED where it stands reaches the links and its port's record alone (R36). -/
theorem receiverLocked_leaves (l : Link) (s : State) :
    (receiverLocked l s).pins = s.pins ∧ (receiverLocked l s).store = s.store ∧ (receiverLocked l s).plans = s.plans
      ∧ (receiverLocked l s).scheduler = s.scheduler ∧ (receiverLocked l s).channels = s.channels
      ∧ (receiverLocked l s).engine = s.engine ∧ (receiverLocked l s).notices = s.notices ∧ (receiverLocked l s).bank = s.bank
      ∧ (receiverLocked l s).survey = s.survey := by
  cases l <;> exact ⟨rfl, rfl, rfl, rfl, rfl, rfl, rfl, rfl, rfl⟩

/-- From the LOCKED receiver where it stands, the test moves to the same state. -/
theorem setReceiver_receiverLocked (l : Link) (s : State) :
    setReceiver l { delineation := .locked, count := 0, position := (receiver l (receiverLocked l s)).position + 36 }
        (receiverLocked l s) = { receiverLocked l s with links := headerPassed l s } := by
  cases l with
  | trunk => rfl
  | tributary n => simp [setReceiver, receiverLocked, receiver, headerPassed]

/-! ## The state of a port (R36) -/

theorem state_of_disabled {p : Ports} {n : Trib} (he : p.table[n].enable = false) : p.state n = .disabled := by
  unfold Ports.state
  rw [he]
  rfl

theorem state_of_locked {p : Ports} {n : Trib} (he : p.table[n].enable = true) (hr : p.rxLocked[n] = true) : p.state n = .up := by
  unfold Ports.state
  rw [he, hr]
  rfl

theorem state_of_unlocked {p : Ports} {n : Trib} (he : p.table[n].enable = true) (hr : p.rxLocked[n] = false) : p.state n = .down := by
  unfold Ports.state
  rw [he, hr]
  rfl

/-! ## The posting of an entry to LOCKED -/

/-- The posting of an entry to LOCKED is one posting, or none at a DISABLED port (R12, R37). -/
theorem lockPosting_cases (l : Link) (s : State) :
    (∃ kind subject detail, lockPosting l s = post kind subject detail) ∨ lockPosting l s = id := by
  cases l with
  | trunk => exact .inl ⟨_, _, _, rfl⟩
  | tributary n =>
    unfold lockPosting
    dsimp only
    split
    · exact .inl ⟨_, _, _, rfl⟩
    · exact .inr rfl

/-- It reaches the notice list and the counter bank alone. -/
theorem lockPosting_eq (l : Link) (s u : State) :
    lockPosting l s u = { u with notices := (lockPosting l s u).notices, bank := (lockPosting l s u).bank } := by
  obtain ⟨kind, subject, detail, h⟩ | h := lockPosting_cases l s
  · rw [h]
    exact post_eq kind subject detail u
  · rw [h]
    rfl

@[simp] theorem lockPosting_leaves (l : Link) (s u : State) :
    (lockPosting l s u).links = u.links ∧ (lockPosting l s u).pins = u.pins ∧ (lockPosting l s u).ports = u.ports
      ∧ (lockPosting l s u).store = u.store ∧ (lockPosting l s u).plans = u.plans ∧ (lockPosting l s u).scheduler = u.scheduler
      ∧ (lockPosting l s u).channels = u.channels ∧ (lockPosting l s u).engine = u.engine ∧ (lockPosting l s u).survey = u.survey := by
  rw [lockPosting_eq]
  exact ⟨rfl, rfl, rfl, rfl, rfl, rfl, rfl, rfl, rfl⟩

/-- What it leaves in them depends on them alone. -/
theorem lockPosting_congr {l : Link} {s u v : State} (hn : v.notices = u.notices) (hb : v.bank = u.bank) :
    (lockPosting l s v).notices = (lockPosting l s u).notices ∧ (lockPosting l s v).bank = (lockPosting l s u).bank := by
  obtain ⟨kind, subject, detail, h⟩ | h := lockPosting_cases l s
  · rw [h]
    exact ⟨post_notices_congr hn, post_bank_congr hn hb⟩
  · rw [h]
    exact ⟨hn, hb⟩

/-- A posting that does not look at the links may be made before or after they move. -/
theorem lockPosting_links (l : Link) (s u : State) (links : Links) :
    lockPosting l s { u with links := links } = { lockPosting l s u with links := links } := by
  obtain ⟨hn, hb⟩ := lockPosting_congr (l := l) (s := s) (u := u) (v := { u with links := links }) rfl rfl
  rw [lockPosting_eq l s { u with links := links }, lockPosting_eq l s u, hn, hb]

theorem setReceiver_lockPosting (l : Link) (r : Receiver) (s u : State) :
    setReceiver l r (lockPosting l s u) = lockPosting l s (setReceiver l r u) := by
  cases l with
  | trunk => simp only [setReceiver, lockPosting_links, lockPosting_leaves]
  | tributary n => simp only [setReceiver, lockPosting_links, lockPosting_leaves]

/-- A port whose receiver is not recorded LOCKED posts its change when it is enabled, and is DISABLED before and after when it is not
(R36, R37). -/
theorem postLocked_eq {l : Link} {s : State} (h : ∀ n : Trib, l = .tributary n → s.ports.rxLocked[n] = false) :
    postLocked l s.ports (receiverLocked l s).ports = lockPosting l s := by
  funext u
  cases l with
  | trunk => rfl
  | tributary n =>
    have hn := h n rfl
    have hlocked : (receiverLocked (.tributary n) s).ports.rxLocked[n] = true := get_set_same s.ports.rxLocked n true
    unfold postLocked postStateChange lockPosting
    dsimp only
    cases he : s.ports.table[n].enable with
    | true =>
      rw [state_of_locked (p := (receiverLocked (.tributary n) s).ports) he hlocked, state_of_unlocked he hn]
      rfl
    | false =>
      rw [state_of_disabled (p := (receiverLocked (.tributary n) s).ports) he, state_of_disabled he]
      rfl

/-- The fourth header: the posting beside the hand-on of the cell, over the part with the receiver LOCKED and past the cell (R9, R12). -/
theorem enterLocked_eq {l : Link} {s : State} (h : ∀ n : Trib, l = .tributary n → s.ports.rxLocked[n] = false) (turn : Turn)
    (bytes : List Byte) :
    enterLocked turn l bytes s =
      postBeside turn (lockPosting l s) (handOn id l (decodeCell bytes)) { receiverLocked l s with links := headerPassed l s } := by
  unfold enterLocked
  dsimp only [Config.cellBytes]
  rw [recordLocked_setReceiver, ← postLocked_eq h]

/-- The receiver LOCKED where it stands is one a header test in LOCKED is made of (R10). -/
theorem tests_receiverLocked {l : Link} {bytes : List Byte} {s : State} (h : Tests l .confirm bytes 36 s) :
    Tests l .locked bytes 36 (receiverLocked l s) := by
  obtain ⟨hrun, hsignal, -, hlen⟩ := h
  cases l with
  | trunk => exact ⟨hrun, hsignal, rfl, hlen⟩
  | tributary n => exact ⟨hrun, hsignal, by simp [receiver, receiverLocked], hlen⟩

theorem tests_lockPosting {l : Link} {d : Delineation} {bytes : List Byte} {width : Nat} {s u : State} (h : Tests l d bytes width u) :
    Tests l d bytes width (lockPosting l s u) := by
  obtain ⟨hlinks, hpins, -⟩ := lockPosting_leaves l s u
  simpa only [Tests, hpins, hasSignal_congr hlinks, receiver_congr hlinks] using h

section FourthHeader

variable {l : Link} {bytes : List Byte} {s : State}

/-- A header test of the receiver LOCKED where it stands hands its cell on from the state in which the fourth header does (R10, R12). -/
theorem exec_locked_receiverLocked (h : Tests l .confirm bytes 36 s) (hv : headerValid bytes = true) (turn : Turn) :
    exec (.lockedHeaderTest l bytes [] turn) (receiverLocked l s) =
      .next (handOn id l (decodeCell bytes) { receiverLocked l s with links := headerPassed l s }) := by
  rw [exec_locked_of_tests (tests_receiverLocked h), if_pos hv, runStoreEvents_nil, setReceiver_receiverLocked]

/-- The same after the posting of the entry. -/
theorem exec_locked_lockPosting (h : Tests l .confirm bytes 36 s) (hv : headerValid bytes = true) (turn : Turn) :
    exec (.lockedHeaderTest l bytes [] turn) (lockPosting l s (receiverLocked l s)) =
      .next (handOn id l (decodeCell bytes) (lockPosting l s { receiverLocked l s with links := headerPassed l s })) := by
  rw [exec_locked_of_tests (tests_lockPosting (tests_receiverLocked h)), if_pos hv, runStoreEvents_nil, setReceiver_lockPosting,
    receiver_congr (lockPosting_leaves l s _).1, setReceiver_receiverLocked]

end FourthHeader

/-- Settles O15: both orders put the same posting beside the same hand-on; the hand-on leaves the links, the ports' settings and the records,
and an idle cell leaves the posting alone. -/
theorem fourthHeaderLocksReceiver : Obligations.FourthHeaderLocksReceiver := by
  unfold Obligations.FourthHeaderLocksReceiver
  intro l bytes turn s h hcount hv hrecord
  have hexec : exec (.confirmHeaderTest l bytes turn) s =
      .next (postBeside turn (lockPosting l s) (handOn id l (decodeCell bytes))
        { receiverLocked l s with links := headerPassed l s }) := by
    rw [exec_confirm_of_tests h turn, if_pos hv, if_neg (by simp [hcount]), enterLocked_eq hrecord]
  have handed := handOn_id_leaves l (decodeCell bytes)
  refine ⟨_, hexec, ?_, fun n hn => ?_, ?_, fun hidle => ?_⟩
  · exact postBeside_leaves (field := State.links) (fun u => (lockPosting_leaves l s u).1) (fun u => (handed u).1) _
  · subst hn
    have hrx := postBeside_leaves (turn := turn) (field := fun u : State => u.ports.rxLocked)
      (fun u => congrArg Ports.rxLocked (lockPosting_leaves (.tributary n) s u).2.2.1) (fun u => (handed u).2.2.1)
      { receiverLocked (.tributary n) s with links := headerPassed (.tributary n) s }
    have htable := postBeside_leaves (turn := turn) (field := fun u : State => u.ports.table)
      (fun u => congrArg Ports.table (lockPosting_leaves (.tributary n) s u).2.2.1) (fun u => (handed u).2.2.2)
      { receiverLocked (.tributary n) s with links := headerPassed (.tributary n) s }
    refine ⟨hrx, htable, fun he => state_of_locked (by rw [htable]; exact he) ?_⟩
    rw [hrx]
    exact get_set_same _ n true
  · cases turn with
    | first => exact exec_locked_lockPosting h hv .first
    | last => exact ⟨_, exec_locked_receiverLocked h hv .last, rfl⟩
  · have posted : postBeside turn (lockPosting l s) (handOn id l (decodeCell bytes))
        { receiverLocked l s with links := headerPassed l s } =
          lockPosting l s { receiverLocked l s with links := headerPassed l s } :=
      postBeside_cases (motive := (· = _)) (handOn_of_idle hidle ..) (by rw [handOn_of_idle hidle])
    rw [posted]
    obtain ⟨hpins, hstore, hplans, hscheduler, hchannels, hengine, hnotices, hbank, hsurvey⟩ := receiverLocked_leaves l s
    obtain ⟨hpostedNotices, hpostedBank⟩ := lockPosting_congr (l := l) (s := s) (u := s)
      (v := { receiverLocked l s with links := headerPassed l s }) hnotices hbank
    refine ⟨?_, hpostedNotices, hpostedBank, ?_⟩
    · simp only [lockPosting_leaves]
    · simp only [lockPosting_leaves, hpins, hstore, hplans, hscheduler, hchannels, hengine, hsurvey, and_self]

end Sys2Proof.Proofs.CellLink
end

section
/-! PROOFS. What gives up the open messages of the channel map: one tributary at a time, for a set of tributaries, and at a lock loss of the
trunk (R10, R11, R119, R120). -/

namespace Sys2Proof.Proofs.CellLink

open Sys2Proof.Machine Sys2Proof.Laws Sys2Proof.Claims

/-! ## Open entries given up -/

/-- The current part of an entry after the OPEN entries latched to the picked tributaries are given up (R111, R119, R120). -/
def giveUpIf (picked : Trib → Bool) : Current → Current
  | .opened n channel next => if picked n then .discarding n channel next true else .opened n channel next
  | .idle => .idle
  | .discarding n channel next d => .discarding n channel next d
  | .discardingInactive => .discardingInactive

/-- What `discardFor` does to a current part. -/
theorem giveUpIf_eq (n : Trib) (c : Current) : (if c.openFor n then c.giveUp else c) = giveUpIf (fun m => m == n) c := by
  cases c <;> simp [Current.openFor, Current.giveUp, giveUpIf]

/-- Given up for some tributaries and then for others is given up for both. -/
theorem giveUpIf_giveUpIf (p q : Trib → Bool) (c : Current) : giveUpIf p (giveUpIf q c) = giveUpIf (fun m => q m || p m) c := by
  cases c with
  | opened n channel next => cases hq : q n <;> simp [giveUpIf, hq]
  | idle => rfl
  | discarding n channel next d => rfl
  | discardingInactive => rfl

theorem giveUpIf_false (c : Current) : giveUpIf (fun _ => false) c = c := by
  cases c <;> rfl

/-- A map in which each entry is given up by a test on its latched tributary is one in which every picked OPEN entry is given up. -/
theorem givenUp_of_get {picked : Trib → Bool} {s t : State}
    (h : ∀ tag, t.channels.get tag = { s.channels.get tag with current := giveUpIf picked (s.channels.get tag).current }) :
    GivenUp picked s t := by
  intro tag
  rw [h tag]
  cases (s.channels.get tag).current <;> rfl

theorem get_discardFor_giveUpIf {s : State} (h : s.channels.wf = true) (n : Trib) (tag : Nat) :
    (discardFor n s).channels.get tag =
      { s.channels.get tag with current := giveUpIf (fun m => m == n) (s.channels.get tag).current } := by
  rw [get_discardFor h, giveUpIf_eq]

/-! ## Counting open entries -/

theorem openCount_entry (n : Trib) (tag : Nat) (e : ChannelEntry) (m : ChannelMap) :
    ChannelMap.openCount n ((tag, e) :: m) = (if e.current.openFor n then 1 else 0) + ChannelMap.openCount n m := by
  unfold ChannelMap.openCount
  cases h : e.current.openFor n <;> simp [h, Nat.add_comm]

/-- An entry left out of the list for being the hard-reset entry is not OPEN (R126). -/
theorem openCount_cons (n : Trib) (tag : Nat) (e : ChannelEntry) (m : ChannelMap) :
    ChannelMap.openCount n (ChannelMap.cons tag e m) = (if e.current.openFor n then 1 else 0) + ChannelMap.openCount n m := by
  unfold ChannelMap.cons
  split
  · next he =>
    subst he
    simp [ChannelEntry.reset, Current.openFor]
  · exact openCount_entry n tag e m

/-- A change of every current part that opens and ends no message of Tn leaves the count of its OPEN entries. -/
theorem openCount_changeCurrent {f : Current → Current} {n : Trib} (hf : ∀ c, (f c).openFor n = c.openFor n) (m : ChannelMap) :
    ChannelMap.openCount n (m.changeCurrent f) = ChannelMap.openCount n m := by
  induction m with
  | nil => rfl
  | cons ke m ih =>
    obtain ⟨tag, e⟩ := ke
    rw [ChannelMap.changeCurrent, openCount_cons, openCount_entry, ih, hf]

/-- Giving up the messages of Tn is nothing to those of another tributary (R120). -/
theorem openCount_discardFor {n k : Trib} (h : k ≠ n) (s : State) :
    (discardFor n s).channels.openCount k = s.channels.openCount k := by
  rw [discardFor_channels]
  refine openCount_changeCurrent (fun c => ?_) _
  rw [giveUpIf_eq]
  cases c with
  | opened m channel next =>
    cases hm : m == n with
    | true =>
      have : m = n := by simpa using hm
      simp [giveUpIf, Current.openFor, this, Ne.symm h]
    | false => simp [giveUpIf, hm]
  | idle => rfl
  | discarding m channel next d => rfl
  | discardingInactive => rfl

/-! ## Giving up for a list of tributaries -/

/-- The messages of each tributary of a list given up in turn. -/
def discardEach (ns : List Trib) (s : State) : State := ns.foldl (fun s n => discardFor n s) s

theorem discardAll_eq (s : State) : discardAll s = discardEach allTribs s := rfl

theorem discardEach_cons (n : Trib) (ns : List Trib) (s : State) : discardEach (n :: ns) s = discardEach ns (discardFor n s) := rfl

theorem get_discardEach (ns : List Trib) (tag : Nat) : ∀ {s : State}, s.channels.wf = true →
    (discardEach ns s).channels.get tag =
      { s.channels.get tag with current := giveUpIf (fun m => ns.contains m) (s.channels.get tag).current } := by
  induction ns with
  | nil =>
    intro s _
    simp [discardEach, giveUpIf_false]
  | cons n ns ih =>
    intro s h
    rw [discardEach_cons, ih (wf_changeCurrent h), get_discardFor_giveUpIf h, giveUpIf_giveUpIf]
    simp only [List.contains_cons]

/-- Each tributary of the list is charged with its own OPEN entries, and no other counter moves (R119, R120). -/
theorem discardEach_bank (ns : List Trib) : ∀ (s : State), ns.Nodup →
    (discardEach ns s).bank.up = s.bank.up ∧ (discardEach ns s).bank.trunk = s.bank.trunk
      ∧ (discardEach ns s).bank.management = s.bank.management
      ∧ ∀ k : Trib, (discardEach ns s).bank.down[k] =
        if k ∈ ns then (s.bank.down[k]).addDiscarded (s.channels.openCount k) else s.bank.down[k] := by
  induction ns with
  | nil =>
    intro s _
    exact ⟨rfl, rfl, rfl, fun k => rfl⟩
  | cons n ns ih =>
    intro s hnodup
    obtain ⟨hn, hns⟩ := List.nodup_cons.mp hnodup
    obtain ⟨hup, htrunk, hmanagement, hdown⟩ := ih (discardFor n s) hns
    refine ⟨hup, htrunk, hmanagement, fun k => ?_⟩
    rw [discardEach_cons, hdown k]
    by_cases hk : k = n
    · subst hk
      rw [if_neg hn, if_pos List.mem_cons_self]
      exact get_set_same _ k _
    · have hbank : (discardFor n s).bank.down[k] = s.bank.down[k] := get_set_other _ hk _
      simp only [openCount_discardFor hk, hbank, List.mem_cons, hk, false_or]

theorem mem_allTribs (n : Trib) : n ∈ allTribs := by
  revert n
  decide

theorem nodup_allTribs : allTribs.Nodup := by
  decide

/-- At a trunk lock loss every OPEN entry is given up (R119). -/
theorem get_discardAll {s : State} (h : s.channels.wf = true) (tag : Nat) :
    (discardAll s).channels.get tag =
      { s.channels.get tag with current := giveUpIf (fun _ => true) (s.channels.get tag).current } := by
  rw [discardAll_eq, get_discardEach _ _ h]
  simp [mem_allTribs]

/-- At a trunk lock loss every tributary is charged with its OPEN entries (R119). -/
theorem discardAll_bank (s : State) :
    (discardAll s).bank.up = s.bank.up ∧ (discardAll s).bank.trunk = s.bank.trunk
      ∧ (discardAll s).bank.management = s.bank.management
      ∧ ∀ k : Trib, (discardAll s).bank.down[k] = (s.bank.down[k]).addDiscarded (s.channels.openCount k) := by
  obtain ⟨hup, htrunk, hmanagement, hdown⟩ := discardEach_bank allTribs s nodup_allTribs
  exact ⟨hup, htrunk, hmanagement, fun k => (hdown k).trans (if_pos (mem_allTribs k))⟩

/-! ## Lock loss of the trunk -/

theorem reportLockLoss_survey (s : State) :
    (reportLockLoss s).survey = if s.survey.state = .running then { s.survey with lockLost := true } else s.survey := by
  unfold reportLockLoss
  split <;> rfl

/-- A lock loss of the trunk reported, wherever the links stand and whatever the header test has counted in the Trunk receive group. -/
theorem trunkLockLost_reported {s : State} (h : s.channels.wf = true) (turn : Turn) (links : Links) (counters : TrunkCounters) :
    TrunkLockLost { s.bank with trunk := counters } s
      (reportLockLost turn .trunk { s with links := links, bank := { s.bank with trunk := counters } }) := by
  let counted := countTrunk .bumpLockLosses { s with links := links, bank := { s.bank with trunk := counters } }
  let u := post .trunkRxChange 0 0 counted
  change TrunkLockLost _ s (reportLockLoss (discardAll u))
  have hchannels : u.channels = s.channels := by simp [u, counted]
  have hsurvey : u.survey = s.survey := by simp [u, counted]
  have hwf : u.channels.wf = true := hchannels ▸ h
  obtain ⟨huup, hudown, hutrunk⟩ := post_bank .trunkRxChange 0 0 counted
  obtain ⟨hup, htrunk, hmanagement, hdown⟩ := discardAll_bank u
  refine ⟨?_, givenUp_of_get fun tag => ?_, fun n => ?_, ?_, ?_, ?_, ?_, ?_⟩
  · simp only [reportLockLoss_leaves, htrunk]
    exact hutrunk
  · simp only [reportLockLoss_leaves, get_discardAll hwf, hchannels]
  · simp only [reportLockLoss_leaves, hdown n, hchannels]
    rw [show u.bank.down = s.bank.down from hudown]
    rfl
  · simp only [reportLockLoss_leaves, hup]
    exact huup
  · simp only [reportLockLoss_leaves, discardAll_leaves]
    exact post_notices_congr rfl
  · simp only [reportLockLoss_leaves, hmanagement]
    exact post_management_congr rfl rfl
  · simp only [reportLockLoss_survey, discardAll_leaves, hsurvey]
  · simp only [reportLockLoss_leaves, discardAll_leaves, u, post_leaves, counted, countTrunk_leaves, and_self]

/-- A lock loss of the trunk reported leaves the links as its receiver's own move left them. -/
theorem reportLockLost_trunk_links (turn : Turn) (s : State) : (reportLockLost turn .trunk s).links = s.links :=
  (reportLockLost_leaves turn .trunk s).1

/-- Settles O17: both ways report the same lock loss, over the links and counters each has left. -/
theorem trunkLockLossReachesEveryBlock : Obligations.TrunkLockLossReachesEveryBlock := by
  unfold Obligations.TrunkLockLossReachesEveryBlock
  intro turn s hrun hlocked hwf
  constructor
  · intro bytes between hsignal hlen hcount hv
    have hexec := exec_locked_of_tests (l := .trunk) ⟨hrun, hsignal, hlocked, hlen⟩ between turn
    rw [if_neg (by simp [hv]), if_neg (by simp [receiver, hcount])] at hexec
    exact ⟨_, hexec, reportLockLost_trunk_links turn _, trunkLockLost_reported hwf turn _ s.bank.trunk.bumpBadHeader⟩
  · have hexec := exec_signalLoss_of_running hrun .trunk turn
    rw [if_pos (show (receiver .trunk s).delineation = .locked from hlocked)] at hexec
    exact ⟨_, hexec, reportLockLost_trunk_links turn _, trunkLockLost_reported hwf turn _ s.bank.trunk⟩

end Sys2Proof.Proofs.CellLink
end

section
/-! PROOFS. The lock loss of a tributary: the cut of its open message, the flush of its downlink, its channel entries, and the postings of both
blocks in either order (R27, R31, R38, R120, R147). -/

namespace Sys2Proof.Proofs.CellLink

open Sys2Proof.Machine Sys2Proof.Laws Sys2Proof.Claims

/-! ## The cut of an open message (R27) -/

theorem isEnd_iff {c : Cell} : c.isEnd = true ↔ c.position = .last ∨ c.position = .sole := by
  simp [Cell.isEnd]

/-- A queue parts after its newest end cell (R27). -/
theorem exists_parted (cells : List Cell) :
    ∃ rest, Parted cells (completePart cells) rest ∧ rest.length = cells.length - (completePart cells).length := by
  obtain ⟨rest, happend, hrest⟩ := completePart_append cells
  refine ⟨rest, ⟨happend.symm, fun c hc => ?_, fun c hc => isEnd_iff.mp (isEnd_of_getLast?_completePart hc)⟩, ?_⟩
  · have hnot : ¬(c.position = .last ∨ c.position = .sole) := fun he => by
      simpa [hrest c hc] using isEnd_iff.mpr he
    exact not_or.mp hnot
  · have hlength : (completePart cells ++ rest).length = cells.length := by rw [happend]
    rw [List.length_append] at hlength
    omega

theorem owedForOpen_eq (n : Trib) (q : UpQueue) :
    (if q.complete = 0 then q.head.map fun h => ({ trib := n, tag := h.tag, next := h.next } : AbandonEntry) else none).toList =
      owedForOpen n q := by
  unfold owedForOpen
  split
  · cases q.head <;> rfl
  · rfl

/-- The counters after a cut of an open message, and the notices (R27). -/
theorem cutOpen_bank (n : Trib) (cause : CutCause) (s : State) :
    (cutOpen n cause s).bank.up = s.bank.up.set n ((s.bank.up[n]).addMessagesCut 1)
      ∧ (cutOpen n cause s).bank.down = s.bank.down ∧ (cutOpen n cause s).bank.trunk = s.bank.trunk := by
  simp [cutOpen]

theorem cutOpen_posts (n : Trib) (cause : CutCause) (s : State) :
    (cutOpen n cause s).notices = (post .messageCut (byteOf n.val) cause.detail s).notices
      ∧ (cutOpen n cause s).bank.management = (post .messageCut (byteOf n.val) cause.detail s).bank.management :=
  ⟨post_notices_congr (by simp), post_management_congr (by simp) (by simp)⟩

/-- The open message of Tn is cut by any step that leaves Un, the abandon list and the Uplink counters as the cut leaves them, and the free
buffers as it leaves them with others returned besides (R27). -/
theorem openMessageCut_of_cutOpen {n : Trib} {cause : CutCause} {freed : Nat} {s t : State}
    (hup : t.store.up = (cutOpen n cause s).store.up) (hfree : t.store.free = (cutOpen n cause s).store.free + freed)
    (hscheduler : t.scheduler = (cutOpen n cause s).scheduler) (hbank : t.bank.up = (cutOpen n cause s).bank.up) :
    OpenMessageCut n freed s t := by
  obtain ⟨rest, hparted, hlength⟩ := exists_parted s.store.up[n].cells
  rw [cutOpen_store] at hup hfree
  refine ⟨⟨_, rest, hparted, hup, ?_⟩, ?_, ?_⟩
  · rw [hfree, hlength]
  · rw [hscheduler, cutOpen_scheduler, owedForOpen_eq]
  · rw [hbank, (cutOpen_bank n cause s).1]
    rfl

/-! ## What no posting reaches -/

/-- The state with the notice list and the Management counters blanked: all that is left is what no posting reaches (R147, R151). -/
def unposted (s : State) : State :=
  { s with notices := .reset .powerOn, bank := { s.bank with management := .zero } }

@[simp] theorem unposted_post (kind : NoticeKind) (subject detail : Byte) (s : State) :
    unposted (post kind subject detail s) = unposted s := by
  simp [unposted]

theorem unposted_cutOpenQueue (n : Trib) (s : State) : unposted (cutOpenQueue n s) = cutOpenQueue n (unposted s) := by
  have hstore : (unposted s).store = s.store := rfl
  unfold cutOpenQueue
  simp only [hstore]
  split
  · cases s.store.up[n].head <;> rfl
  · rfl

/-- A cut works on the queue without looking at the notices. -/
theorem unposted_cutOpen (n : Trib) (cause : CutCause) (s : State) :
    unposted (cutOpen n cause s) = countUp n (.addMessagesCut 1) (cutOpenQueue n (unposted s)) := by
  unfold cutOpen
  rw [unposted_post, ← unposted_cutOpenQueue]
  rfl

theorem endIngress_of_opened {n : Trib} {s : State} {tag : Tag} {channel : Channel} {limit admitted : Nat} {next : Index}
    (h : s.ports.ingress[n] = .opened tag channel limit admitted next) :
    endIngress n s = setIngress n .idle (cutOpen n .linkLost s) := by
  unfold endIngress
  rw [h]

/-- With no message open there is nothing to cut: the record is IDLE, as it may have been (R38). -/
theorem endIngress_of_closed {n : Trib} {s : State}
    (h : ∀ tag channel limit admitted next, s.ports.ingress[n] ≠ .opened tag channel limit admitted next) :
    endIngress n s = setIngress n .idle s := by
  unfold endIngress
  cases hi : s.ports.ingress[n] with
  | idle =>
    have hself : s.ports.ingress.set n .idle = s.ports.ingress := by
      rw [← hi]
      exact Vector.set_getElem_self n.isLt
    simp only [setIngress, hself]
  | opened tag channel limit admitted next => exact absurd hi (h tag channel limit admitted next)
  | discarding => rfl

/-- A message is open at a port, or none is. -/
theorem opened_or_closed (i : Ingress) :
    (∃ tag channel limit admitted next, i = .opened tag channel limit admitted next)
      ∨ ∀ tag channel limit admitted next, i ≠ .opened tag channel limit admitted next := by
  cases i with
  | idle => exact .inr (by simp)
  | opened tag channel limit admitted next => exact .inl ⟨tag, channel, limit, admitted, next, rfl⟩
  | discarding => exact .inr (by simp)

theorem endIngress_ports (n : Trib) (s : State) :
    (endIngress n s).ports = { s.ports with ingress := s.ports.ingress.set n .idle } := by
  obtain ⟨tag, channel, limit, admitted, next, h⟩ | h := opened_or_closed s.ports.ingress[n]
  · simp [endIngress_of_opened h]
  · simp [endIngress_of_closed h]

theorem unposted_endIngress (n : Trib) (s : State) : unposted (endIngress n (unposted s)) = unposted (endIngress n s) := by
  obtain ⟨tag, channel, limit, admitted, next, h⟩ | h := opened_or_closed s.ports.ingress[n]
  · rw [endIngress_of_opened h, endIngress_of_opened (s := unposted s) h]
    exact congrArg (setIngress n .idle) ((unposted_cutOpen n .linkLost (unposted s)).trans (unposted_cutOpen n .linkLost s).symm)
  · rw [endIngress_of_closed h, endIngress_of_closed (s := unposted s) h]
    rfl

/-! ## A port closed by a lock loss (R38) -/

/-- What a lock loss of an enabled port does besides its record of the receiver and its posting: the open message cut, Dn flushed, the channel
map told. -/
def portClosed (n : Trib) (s : State) : State := closeDownlink n (endIngress n s)

theorem portLockLost_of_disabled {n : Trib} {s : State} (he : s.ports.table[n].enable = false) (turn : Turn) :
    portLockLost turn n s = setRxLocked n false s := by
  unfold portLockLost
  rw [he]
  rfl

/-- An enabled port goes from UP to DOWN, posted beside its closing (R36, R38). -/
theorem portLockLost_of_enabled {n : Trib} {s : State} (he : s.ports.table[n].enable = true) (hr : s.ports.rxLocked[n] = true)
    (turn : Turn) :
    portLockLost turn n s =
      postBeside turn (post .portChange (byteOf n.val) 1) (portClosed n) (setRxLocked n false s) := by
  have hdown : (setRxLocked n false s).ports.state n = .down :=
    state_of_unlocked (p := (setRxLocked n false s).ports) he (get_set_same s.ports.rxLocked n false)
  unfold portLockLost
  dsimp only
  rw [if_pos he, hdown, state_of_locked he hr]
  rfl

/-- The closing works without looking at the notices. -/
theorem unposted_portClosed (n : Trib) {u v : State} (h : unposted u = unposted v) : unposted (portClosed n u) = unposted (portClosed n v) := by
  have closes (s : State) : unposted (portClosed n s) = closeDownlink n (unposted (endIngress n (unposted s))) := by
    rw [unposted_endIngress]
    rfl
  rw [closes, closes, h]

/-- Whatever the order of the postings, a port that has lost its receiver is, but for them, the port closed. -/
theorem unposted_portLockLost {n : Trib} {s : State} (he : s.ports.table[n].enable = true) (hr : s.ports.rxLocked[n] = true)
    (turn : Turn) : unposted (portLockLost turn n s) = unposted (portClosed n (setRxLocked n false s)) := by
  rw [portLockLost_of_enabled he hr]
  exact postBeside_eq (unposted_post _ _ _) (unposted_portClosed n (unposted_post _ _ _ _))

/-- What a port closed has of ports, downlink queue, channel map and counters, open message or none (R31, R38, R120). -/
theorem portClosed_ports (n : Trib) (s : State) :
    (portClosed n s).ports = { s.ports with ingress := s.ports.ingress.set n .idle } := by
  simp [portClosed, endIngress_ports]

/-- The end of an ingress record reaches neither the downlink nor the counters of trunk and downlink. -/
theorem endIngress_downlink (n : Trib) (s : State) :
    (endIngress n s).store.down = s.store.down ∧ (endIngress n s).bank.down = s.bank.down
      ∧ (endIngress n s).bank.trunk = s.bank.trunk := by
  obtain ⟨tag, channel, limit, admitted, next, h⟩ | h := opened_or_closed s.ports.ingress[n]
  · simp [endIngress_of_opened h, cutOpen_store, cutOpen_bank]
  · simp [endIngress_of_closed h]

theorem closeDownlink_store (n : Trib) (s : State) :
    (closeDownlink n s).store =
      { s.store with free := s.store.free + s.store.down[n].length, down := s.store.down.set n [] } := rfl

theorem closeDownlink_bank (n : Trib) (s : State) :
    (closeDownlink n s).bank =
      { s.bank with down := s.bank.down.set n ((s.bank.down[n]).addDiscarded (s.channels.openCount n)) } := rfl

theorem portClosed_downlink (n : Trib) (s : State) :
    (portClosed n s).store.down = s.store.down.set n []
      ∧ (portClosed n s).bank.down = s.bank.down.set n ((s.bank.down[n]).addDiscarded (s.channels.openCount n))
      ∧ (portClosed n s).bank.trunk = s.bank.trunk := by
  obtain ⟨hstore, hdown, htrunk⟩ := endIngress_downlink n s
  unfold portClosed
  simp only [closeDownlink_store, closeDownlink_bank, hstore, hdown, htrunk, endIngress_leaves, and_self]

theorem get_portClosed {s : State} (h : s.channels.wf = true) (n : Trib) (tag : Nat) :
    (portClosed n s).channels.get tag =
      { s.channels.get tag with current := giveUpIf (fun m => m == n) (s.channels.get tag).current } := by
  have hchannels : (flushDown n (endIngress n s)).channels = s.channels := by simp
  unfold portClosed closeDownlink
  rw [get_discardFor_giveUpIf (hchannels ▸ h), hchannels]

/-- The uplink side of a port closed with a message open: the cut, with the buffers of Dn returned besides (R27, R31). -/
theorem portClosed_uplink_of_opened {n : Trib} {s : State} {tag : Tag} {channel : Channel} {limit admitted : Nat} {next : Index}
    (h : s.ports.ingress[n] = .opened tag channel limit admitted next) :
    OpenMessageCut n s.store.down[n].length s (portClosed n s)
      ∧ (portClosed n s).notices = (post .messageCut (byteOf n.val) 6 s).notices
      ∧ (portClosed n s).bank.management = (post .messageCut (byteOf n.val) 6 s).bank.management := by
  obtain ⟨hnotices, hmanagement⟩ := cutOpen_posts n .linkLost s
  unfold portClosed
  rw [endIngress_of_opened h]
  refine ⟨openMessageCut_of_cutOpen (cause := .linkLost) rfl ?_ rfl rfl, hnotices, hmanagement⟩
  rw [closeDownlink_store]
  simp [cutOpen_store]

/-- The uplink side of a port closed with no message open: nothing but the buffers of Dn (R31). -/
theorem portClosed_uplink_of_closed {n : Trib} {s : State}
    (h : ∀ tag channel limit admitted next, s.ports.ingress[n] ≠ .opened tag channel limit admitted next) :
    (portClosed n s).store.up = s.store.up ∧ (portClosed n s).store.free = s.store.free + s.store.down[n].length
      ∧ (portClosed n s).scheduler = s.scheduler ∧ (portClosed n s).bank.up = s.bank.up
      ∧ (portClosed n s).notices = s.notices ∧ (portClosed n s).bank.management = s.bank.management := by
  unfold portClosed
  rw [endIngress_of_closed h]
  exact ⟨rfl, rfl, rfl, rfl, rfl, rfl⟩

/-! ## The postings of a lock loss (R147) -/

/-- A posting beside work that posts once is both postings in that order, whatever else the work does. -/
theorem postBeside_bothPosted {turn : Turn} {kind kind' : NoticeKind} {subject detail subject' detail' : Byte} {work : State → State}
    {s u : State} (hn : u.notices = s.notices) (hm : u.bank.management = s.bank.management)
    (hw : ∀ v, v.ports = u.ports → (work v).notices = (post kind' subject' detail' v).notices
      ∧ (work v).bank.management = (post kind' subject' detail' v).bank.management) :
    (postBeside turn (post kind subject detail) work u).notices =
        (bothPosted turn (post kind subject detail) (post kind' subject' detail') s).notices
      ∧ (postBeside turn (post kind subject detail) work u).bank.management =
        (bothPosted turn (post kind subject detail) (post kind' subject' detail') s).bank.management := by
  have posted (k : NoticeKind) (a d : Byte) {v w : State} (h : v.notices = w.notices ∧ v.bank.management = w.bank.management) :
      (post k a d v).notices = (post k a d w).notices ∧ (post k a d v).bank.management = (post k a d w).bank.management :=
    ⟨post_notices_congr h.1, post_management_congr h.1 h.2⟩
  cases turn with
  | first =>
    obtain ⟨hwn, hwm⟩ := hw (post kind subject detail u) (by simp)
    obtain ⟨hpn, hpm⟩ := posted kind' subject' detail' (posted kind subject detail ⟨hn, hm⟩)
    exact ⟨hwn.trans hpn, hwm.trans hpm⟩
  | last =>
    obtain ⟨hwn, hwm⟩ := hw u rfl
    obtain ⟨hpn, hpm⟩ := posted kind' subject' detail' ⟨hn, hm⟩
    exact posted kind subject detail ⟨hwn.trans hpn, hwm.trans hpm⟩

/-- A posting beside work that posts nothing is that posting. -/
theorem postBeside_posted {turn : Turn} {kind : NoticeKind} {subject detail : Byte} {work : State → State}
    {s u : State} (hn : u.notices = s.notices) (hm : u.bank.management = s.bank.management)
    (hw : ∀ v, v.ports = u.ports → (work v).notices = v.notices ∧ (work v).bank.management = v.bank.management) :
    (postBeside turn (post kind subject detail) work u).notices = (post kind subject detail s).notices
      ∧ (postBeside turn (post kind subject detail) work u).bank.management = (post kind subject detail s).bank.management := by
  cases turn with
  | first =>
    obtain ⟨hwn, hwm⟩ := hw (post kind subject detail u) (by simp)
    exact ⟨hwn.trans (post_notices_congr hn), hwm.trans (post_management_congr hn hm)⟩
  | last =>
    obtain ⟨hwn, hwm⟩ := hw u rfl
    exact ⟨post_notices_congr (hwn.trans hn), post_management_congr (hwn.trans hn) (hwm.trans hm)⟩

/-! ## The lock loss of a port -/

/-- States that differ only in what postings reach agree in every other block. -/
theorem blocks_of_unposted {s t : State} (h : unposted t = unposted s) :
    t.ports = s.ports ∧ t.store = s.store ∧ t.channels = s.channels ∧ t.scheduler = s.scheduler ∧ t.bank.up = s.bank.up
      ∧ t.bank.down = s.bank.down ∧ t.bank.trunk = s.bank.trunk := by
  simp only [unposted, State.mk.injEq, CounterBank.mk.injEq] at h
  obtain ⟨-, -, -, hstore, hports, -, hscheduler, hchannels, -, -, ⟨hup, hdown, htrunk, -⟩, -⟩ := h
  exact ⟨hports, hstore, hchannels, hscheduler, hup, hdown, htrunk⟩

theorem openMessageCut_of_unposted {n : Trib} {freed : Nat} {s t u : State} (h : OpenMessageCut n freed s u)
    (ht : unposted t = unposted u) : OpenMessageCut n freed s t := by
  obtain ⟨-, hstore, -, hscheduler, hbank, -, -⟩ := blocks_of_unposted ht
  simpa only [OpenMessageCut, hstore, hscheduler, hbank] using h

theorem otherLinksStand_setReceiver (l : Link) (r : Receiver) (s : State) : OtherLinksStand l s (setReceiver l r s) := by
  obtain ⟨htrunk, htribs⟩ := setReceiver_transmitters l r s
  exact ⟨htrunk, htribs, fun k hk => ⟨receiver_setReceiver_other hk r s, hasSignal_setReceiver k l r s⟩⟩

/-- A lock loss of a port moves no link. -/
theorem otherLinksStand_portLockLost {n : Trib} {s u : State} (h : OtherLinksStand (.tributary n) s u) (turn : Turn) :
    OtherLinksStand (.tributary n) s (portLockLost turn n u) := by
  have hlinks : (portLockLost turn n u).links = u.links := by simp
  simpa only [OtherLinksStand, hlinks, receiver_congr hlinks, hasSignal_congr hlinks] using h

/-- An enabled port that loses its receiver, wherever the links stand (R38). -/
theorem portLockLost_enabled {n : Trib} {s : State} (hwf : s.channels.wf = true) (hr : s.ports.rxLocked[n] = true)
    (he : s.ports.table[n].enable = true) (turn : Turn) (links : Links)
    (hothers : OtherLinksStand (.tributary n) s { s with links := links }) :
    PortLockLost turn n s (portLockLost turn n { s with links := links }) := by
  let lost := setRxLocked n false { s with links := links }
  have hlost : portLockLost turn n { s with links := links } = postBeside turn (post .portChange (byteOf n.val) 1) (portClosed n) lost :=
    portLockLost_of_enabled (s := { s with links := links }) he hr turn
  have hclosed : unposted (portLockLost turn n { s with links := links }) = unposted (portClosed n lost) :=
    unposted_portLockLost (s := { s with links := links }) he hr turn
  obtain ⟨hports, hstore, hchannels, hscheduler, hup, hdown, htrunk⟩ := blocks_of_unposted hclosed
  obtain ⟨hclosedDown, hclosedBank, hclosedTrunk⟩ := portClosed_downlink n lost
  have hportsEq := hports.trans (portClosed_ports n lost)
  refine ⟨fun _ => ⟨hportsEq, ?_, ?_, ?_, ?_, ?_, ?_, ?_⟩, fun hd => absurd (he.symm.trans hd) (by simp),
    otherLinksStand_portLockLost hothers turn, by simp, by simp, by simp, by simp⟩
  · rw [hportsEq]
    exact state_of_unlocked he (get_set_same s.ports.rxLocked n false)
  · rw [hstore]
    exact hclosedDown
  · intro tag channel limit admitted next hopen
    have hcut := (portClosed_uplink_of_opened (s := lost) hopen).1
    refine ⟨openMessageCut_of_unposted hcut hclosed, ?_⟩
    rw [hlost]
    refine postBeside_bothPosted rfl rfl fun v hv => ?_
    exact (portClosed_uplink_of_opened (s := v) (by rw [hv]; exact hopen)).2
  · intro hidle
    obtain ⟨hu, hf, hs, hb, -, -⟩ := portClosed_uplink_of_closed (s := lost) hidle
    refine ⟨?_, ?_, hscheduler.trans hs, hup.trans hb, ?_⟩
    · rw [hstore]
      exact hu
    · rw [hstore]
      exact hf
    · rw [hlost]
      refine postBeside_posted rfl rfl fun v hv => ?_
      obtain ⟨-, -, -, -, hn, hm⟩ := portClosed_uplink_of_closed (s := v) (by rw [hv]; exact hidle)
      exact ⟨hn, hm⟩
  · refine givenUp_of_get fun tag => ?_
    rw [hchannels]
    exact get_portClosed (s := lost) hwf n tag
  · exact hdown.trans hclosedBank
  · exact htrunk.trans hclosedTrunk

/-- A DISABLED port that loses its receiver records it and does nothing else (R38). -/
theorem portLockLost_disabled {n : Trib} {s : State} (he : s.ports.table[n].enable = false) (turn : Turn) (links : Links)
    (hothers : OtherLinksStand (.tributary n) s { s with links := links }) :
    PortLockLost turn n s (portLockLost turn n { s with links := links }) := by
  have hstands := otherLinksStand_portLockLost hothers turn
  rw [portLockLost_of_disabled (s := { s with links := links }) he turn] at hstands ⊢
  exact ⟨fun hd => absurd (he.symm.trans hd) (by simp), fun _ => ⟨rfl, rfl, rfl, rfl, rfl, rfl⟩, hstands, rfl, rfl, rfl, rfl⟩

theorem portLockLost_reported {n : Trib} {s : State} (hwf : s.channels.wf = true) (hr : s.ports.rxLocked[n] = true) (turn : Turn)
    (links : Links) (hothers : OtherLinksStand (.tributary n) s { s with links := links }) :
    PortLockLost turn n s (portLockLost turn n { s with links := links }) := by
  cases he : s.ports.table[n].enable with
  | true => exact portLockLost_enabled hwf hr he turn links hothers
  | false => exact portLockLost_disabled he turn links hothers

/-- Settles O18: both ways report the same lock loss to the port, over the links and counters each has left. -/
theorem lockLossTakesPortDown : Obligations.LockLossTakesPortDown := by
  unfold Obligations.LockLossTakesPortDown
  intro n turn s hrun hlocked hr hwf
  constructor
  · intro bytes between hsignal hlen hcount hv
    have hexec := exec_locked_of_tests (l := .tributary n) ⟨hrun, hsignal, hlocked, hlen⟩ between turn
    rw [if_neg (by simp [hv]), if_neg (by simp [hcount])] at hexec
    let sought := setReceiver (.tributary n) (seekAt ((receiver (.tributary n) s).position + 1)) s
    have hlinks : (reportLockLost turn (.tributary n) (countBadHeader (.tributary n) sought)).links = sought.links :=
      (reportLockLost_leaves turn _ _).1
    refine ⟨_, hexec, ?_, ?_, ?_⟩
    · exact (receiver_congr hlinks _).trans (receiver_setReceiver_same _ _ s)
    · exact (hasSignal_congr hlinks _).trans ((hasSignal_setReceiver _ _ _ s).trans hsignal)
    · exact portLockLost_reported (s := { s with bank := headerDiscarded (.tributary n) s.bank }) hwf hr turn _
        (otherLinksStand_setReceiver (.tributary n) _ s)
  · have hexec := exec_signalLoss_of_running hrun (.tributary n) turn
    rw [if_pos hlocked] at hexec
    obtain ⟨hreceiver, hsignal, honly, hothers⟩ := setReceiver_setSignal (.tributary n) (seekAt 0) false s
    have hlinks := (reportLockLost_leaves turn (.tributary n)
      (setReceiver (.tributary n) (seekAt 0) (setSignal (.tributary n) false s))).1
    refine ⟨_, hexec, (receiver_congr hlinks _).trans hreceiver, (hasSignal_congr hlinks _).trans hsignal, ?_⟩
    exact portLockLost_reported hwf hr turn _ hothers

end Sys2Proof.Proofs.CellLink
end

section
/-! PROOFS. Hard reset: what begins it, that it stills the part, and the state it ends in, which meets every safety law
(R16, R34, R54, R57, R126, R160, R181). -/

namespace Sys2Proof.Proofs.CellLink

open Sys2Proof.Machine Sys2Proof.Safety Sys2Proof.Laws Sys2Proof.Claims

/-! ## The beginning and the stillness of a hard reset -/

/-- Every step but the pins' and the signals' is an event of the running part (R16). -/
theorem exec_eq_whileRunning {i : Instr} (hpower : i ≠ .powerOn) (hreset : i ≠ .resetN) (hend : i ≠ .hardResetEnd)
    (hloss : ∀ l turn, i ≠ .signalLoss l turn) (hreturn : ∀ l, i ≠ .signalReturn l) :
    ∃ event, ∀ s, exec i s = .next (whileRunning s event) := by
  cases i with
  | powerOn => exact absurd rfl hpower
  | resetN => exact absurd rfl hreset
  | hardResetEnd => exact absurd rfl hend
  | signalLoss l turn => exact absurd rfl (hloss l turn)
  | signalReturn l => exact absurd rfl (hreturn l)
  | _ => exact ⟨_, fun _ => rfl⟩

/-- The beginning of a hard reset: the transmitters silent, a SWITCH PLAN or trial ended, and notices and placed responses standing
(R16, R57). -/
theorem beginHardReset_spec (cause : ResetCause) (s : State) :
    (beginHardReset cause s).links.trunkTx = .silent ∧ (∀ n : Trib, (beginHardReset cause s).links.tribTx[n] = .silent)
      ∧ (beginHardReset cause s).plans = { s.plans with switch := .steady } ∧ (beginHardReset cause s).engine.inProgress = none
      ∧ (beginHardReset cause s).notices = s.notices ∧ (beginHardReset cause s).engine.placed = s.engine.placed :=
  ⟨rfl, fun n => by simp [beginHardReset, Links.silenced], rfl, rfl, rfl, rfl⟩

theorem signalOnly_setSignal (l : Link) (b : Bool) (s : State) : SignalOnly l s (setSignal l b s) := by
  obtain ⟨htrunk, htribs⟩ := setSignal_transmitters l b s
  exact ⟨setSignal_eq l b s, ⟨htrunk, htribs, fun k hk => ⟨receiver_setSignal k l b s, hasSignal_setSignal_other hk b s⟩⟩,
    receiver_setSignal l l b s⟩

theorem signalOnly_refl (l : Link) (s : State) : SignalOnly l s s := ⟨rfl, ⟨rfl, rfl, fun _ _ => ⟨rfl, rfl⟩⟩, rfl⟩

theorem exec_signalLoss_of_reset {s : State} {cause : ResetCause} (h : s.pins.hardReset = some cause) (l : Link) (turn : Turn) :
    exec (.signalLoss l turn) s = .next (setSignal l false s) := by
  simp [exec, execSignalLoss, signalLossEvent, h]

theorem exec_signalReturn_of_reset {s : State} {cause : ResetCause} (h : s.pins.hardReset = some cause) (l : Link) :
    exec (.signalReturn l) s = .next (if hasSignal l s then s else setSignal l true s) := by
  simp [exec, execSignalReturn, signalReturnEvent, h]

/-- Settles O20: the two beginnings are one operation by cause, and while it lasts each step is stilled by what it is an event of. -/
theorem hardResetBeginsAndStillsThePart : Obligations.HardResetBeginsAndStillsThePart := by
  unfold Obligations.HardResetBeginsAndStillsThePart
  intro s
  refine ⟨⟨_, rfl, rfl, beginHardReset_spec .powerOn _⟩, fun hrun => ?_, fun cause hreset => ⟨?_, ?_, fun l turn => ⟨?_, ?_⟩⟩⟩
  · have hexec : exec .resetN s = .next (beginHardReset .resetPin { s with pins := { s.pins with resetNHigh := false } }) := by
      simp [exec, execResetN, resetNEvent, hrun]
    exact ⟨_, hexec, rfl, rfl, beginHardReset_spec .resetPin _⟩
  · simp [exec, execResetN, resetNEvent, hreset]
  · intro i hpower hresetN hend hloss hreturn
    obtain ⟨event, hevent⟩ := exec_eq_whileRunning hpower hresetN hend hloss hreturn
    rw [hevent, whileRunning_of_reset (by simp [hreset])]
  · exact ⟨_, exec_signalLoss_of_reset hreset l turn, signalOnly_setSignal l false s, hasSignal_setSignal_same l false s⟩
  · rw [exec_signalReturn_of_reset hreset]
    cases hs : hasSignal l s with
    | true => exact ⟨_, rfl, signalOnly_refl l s, hs⟩
    | false => exact ⟨_, rfl, signalOnly_setSignal l true s, hasSignal_setSignal_same l true s⟩

/-! ## The state a hard reset ends in -/

section AfterHardReset

variable (cause : ResetCause) (trunkSignal : Bool) (tribSignal : Vector Bool 8) (waiting : List Instr)

/-- What a hard reset leaves of one tributary's port (R54). -/
theorem port_afterHardReset (n : Trib) :
    (State.afterHardReset cause trunkSignal tribSignal waiting).ports.table[n] = .reset
      ∧ (State.afterHardReset cause trunkSignal tribSignal waiting).ports.rxLocked[n] = false
      ∧ (State.afterHardReset cause trunkSignal tribSignal waiting).ports.ingress[n] = .idle := by
  simp [State.afterHardReset]

/-- What a hard reset leaves of one tributary's queues (R34). -/
theorem queues_afterHardReset (n : Trib) :
    (State.afterHardReset cause trunkSignal tribSignal waiting).store.up[n] = .empty
      ∧ (State.afterHardReset cause trunkSignal tribSignal waiting).store.down[n] = [] := by
  simp [State.afterHardReset]

/-- Both plans are the boot plan (R57). -/
theorem plan_afterHardReset (p : PlanId) : (State.afterHardReset cause trunkSignal tribSignal waiting).plans.plan[p] = .boot := by
  simp [State.afterHardReset]

/-! ### The boot plan (R57) -/

theorem entries_boot (n : Trib) : Plan.boot.entries[n] = .boot n := by
  revert n
  decide

/-- Slot 0 is MANAGEMENT's and every other slot is OPEN (R57). -/
theorem owner_boot (k : Nat) : Plan.boot.owner k = if k = 0 then .management else .openSlot := by
  have hslots : Plan.boot.slots.toList = (List.replicate 256 Owner.openSlot).set 0 .management := rfl
  unfold Plan.owner
  rw [hslots, List.getD_eq_getElem?_getD, List.getElem?_set, List.getElem?_replicate]
  split
  · next h0 =>
    rw [if_pos h0.symm, List.length_replicate]
    rfl
  · next h0 =>
    rw [if_neg (Ne.symm h0)]
    split <;> rfl

theorem isBootPlan_boot : IsBootPlan .boot :=
  ⟨rfl, owner_boot 0, fun k hk _ => by rw [owner_boot, if_neg (by omega)], entries_boot, rfl, rfl⟩

/-- The boot plan is valid and in range (R57, R60). -/
theorem fault_boot : Plan.boot.fault = none := by
  decide

theorem planOk_boot : planOk .boot := by
  refine ⟨by decide, by decide, fun n => ?_⟩
  rw [entries_boot]
  revert n
  decide

/-! ### Every block in its starting state -/

theorem cellsHeld_afterHardReset : cellsHeld (.afterHardReset cause trunkSignal tribSignal waiting) = 0 := by
  simp [cellsHeld, State.afterHardReset, UpQueue.empty, allTribs]

/-- With every floor 0 no queue falls short of its floor (R19, R54). -/
theorem floors_afterHardReset :
    (State.afterHardReset cause trunkSignal tribSignal waiting).reserve = 0
      ∧ floorSum (State.afterHardReset cause trunkSignal tribSignal waiting).ports.table = 0 := by
  simp [State.reserve, reserveOf, tribShortfall, shortfall, floorSum, State.afterHardReset, PortEntry.reset, allTribs]

theorem startingState_afterHardReset :
    StartingState cause.detail (.afterHardReset cause trunkSignal tribSignal waiting) := by
  obtain ⟨hreserve, -⟩ := floors_afterHardReset cause trunkSignal tribSignal waiting
  refine ⟨rfl, receiver_afterHardReset _ _ _ _, rfl, fun n => ?_, rfl, hreserve, queues_afterHardReset _ _ _ _, fun n => ?_,
    fun p => ?_, rfl, rfl, rfl, rfl, rfl, rfl, fun tag => rfl, rfl, rfl, fun g => ?_, rfl⟩
  · simp [State.afterHardReset, Links.reset]
  · obtain ⟨htable, hrecord, hingress⟩ := port_afterHardReset cause trunkSignal tribSignal waiting n
    exact ⟨htable, state_of_disabled (by rw [htable]; rfl), hrecord, hingress⟩
  · rw [plan_afterHardReset]
    exact isBootPlan_boot
  · cases g with
    | uplink n => simp [State.afterHardReset, CounterBank.values, UplinkCounters.values, UplinkCounters.zero]
    | downlink n => simp [State.afterHardReset, CounterBank.values, DownlinkCounters.values, DownlinkCounters.zero]
    | trunk => rfl
    | management => rfl

/-! ### Every safety law -/

theorem storeOk_afterHardReset : StoreOk (.afterHardReset cause trunkSignal tribSignal waiting) := by
  obtain ⟨hreserve, hfloors⟩ := floors_afterHardReset cause trunkSignal tribSignal waiting
  refine ⟨?_, by simp [hreserve], by simp [hfloors], fun n => ?_, fun n => ?_⟩
  · rw [cellsHeld_afterHardReset]
    rfl
  · obtain ⟨htable, -⟩ := port_afterHardReset cause trunkSignal tribSignal waiting n
    rw [htable]
    simp [portEntryOk, PortEntry.reset]
  · obtain ⟨hup, hdown⟩ := queues_afterHardReset cause trunkSignal tribSignal waiting n
    rw [hup, hdown]
    exact ⟨Nat.zero_le _, Nat.zero_le _⟩

theorem uplinkOk_afterHardReset : UplinkOk (.afterHardReset cause trunkSignal tribSignal waiting) := by
  intro n
  obtain ⟨hup, -⟩ := queues_afterHardReset cause trunkSignal tribSignal waiting n
  obtain ⟨-, -, hingress⟩ := port_afterHardReset cause trunkSignal tribSignal waiting n
  rw [hup, hingress]
  exact ⟨rfl, rfl⟩

theorem portsOk_afterHardReset : PortsOk (.afterHardReset cause trunkSignal tribSignal waiting) := by
  intro n
  obtain ⟨hup, hdown⟩ := queues_afterHardReset cause trunkSignal tribSignal waiting n
  obtain ⟨-, -, hingress⟩ := port_afterHardReset cause trunkSignal tribSignal waiting n
  exact ⟨fun _ => ⟨hdown, hingress⟩, fun _ => hup⟩

theorem channelsOk_afterHardReset : ChannelsOk (.afterHardReset cause trunkSignal tribSignal waiting) := by
  refine ⟨rfl, fun tag n h => ?_⟩
  have hidle : ((State.afterHardReset cause trunkSignal tribSignal waiting).channels.get tag).current = .idle := rfl
  simp [hidle, Current.openFor] at h

theorem plansOk_afterHardReset : PlansOk (.afterHardReset cause trunkSignal tribSignal waiting) := by
  have hrunning : (State.afterHardReset cause trunkSignal tribSignal waiting).plans.running = .boot := plan_afterHardReset ..
  refine ⟨fun p => ?_, ?_, rfl, ?_⟩
  · rw [plan_afterHardReset]
    exact planOk_boot
  · rw [hrunning]
    exact fault_boot
  · rw [hrunning]
    exact Nat.zero_lt_succ 7

theorem schedulerOk_afterHardReset : SchedulerOk (.afterHardReset cause trunkSignal tribSignal waiting) := by
  refine ⟨List.nodup_nil, fun n hn => absurd hn List.not_mem_nil, List.nodup_nil, fun e he => absurd he List.not_mem_nil⟩

/-- The engine is empty and idle (R146). -/
theorem engine_afterHardReset : (State.afterHardReset cause trunkSignal tribSignal waiting).engine =
    { commands := [], inProgress := none, placed := [], reserved := false, lastTaken := none, stored := none } := rfl

theorem engineOk_afterHardReset : EngineOk (.afterHardReset cause trunkSignal tribSignal waiting) := by
  unfold EngineOk
  rw [engine_afterHardReset]
  simp [Engine.entriesUsed]

theorem notices_afterHardReset : (State.afterHardReset cause trunkSignal tribSignal waiting).notices = .reset cause := rfl

theorem noticesOk_afterHardReset : NoticesOk (.afterHardReset cause trunkSignal tribSignal waiting) := by
  unfold NoticesOk
  rw [notices_afterHardReset]
  cases cause <;> decide

/-- The state a hard reset ends in meets every safety law, however the reset began and whatever the lines then carry. -/
theorem sound_afterHardReset : Sound (.afterHardReset cause trunkSignal tribSignal waiting) where
  receivers := receiversOk_afterHardReset ..
  store := storeOk_afterHardReset ..
  uplink := uplinkOk_afterHardReset _ _ _ _
  ports := portsOk_afterHardReset _ _ _ _
  channels := channelsOk_afterHardReset ..
  plans := plansOk_afterHardReset ..
  scheduler := schedulerOk_afterHardReset ..
  engine := engineOk_afterHardReset ..
  notices := noticesOk_afterHardReset ..

end AfterHardReset

/-- Settles O2: the state after reset is one a hard reset ends in. -/
theorem resetStateIsSound : Obligations.ResetStateIsSound := by
  unfold Obligations.ResetStateIsSound
  exact sound_afterHardReset ..

/-- Settles O21: the end of a hard reset and the state after reset are the same starting state, by their causes. -/
theorem hardResetEndsInStartingState : Obligations.HardResetEndsInStartingState := by
  unfold Obligations.HardResetEndsInStartingState
  refine ⟨fun s cause hreset => ?_, startingState_afterHardReset .powerOn ..⟩
  have hexec : exec .hardResetEnd s = .next (.afterHardReset cause s.links.trunkSignal s.links.tribSignal s.pending) := by
    simp [exec, execHardResetEnd, hardResetEndEvent, hreset]
  refine ⟨_, hexec, ?_, rfl, fun l => ?_⟩
  · cases cause <;> exact startingState_afterHardReset ..
  · cases l <;> rfl

end Sys2Proof.Proofs.CellLink
end

section
/-! PROOFS. One induction over the steps for a law of the queues: a law that reads the cell store, the port table and the ingress records
alone outlives every step when it outlives each operation on them. -/

namespace Sys2Proof.Proofs.CellStore

open Sys2Proof.Machine Sys2Proof.Safety Sys2Proof.Laws Sys2Proof.Proofs.CellLink

/-! ## Laws of the queues -/

/-- What a law of the queues reads: the cell store, the port table and the ingress records. -/
def queuesOf (s : State) : CellStore × Vector PortEntry 8 × Vector Ingress 8 := (s.store, s.ports.table, s.ports.ingress)

/-- A law that reads the queues, the port table and the ingress records alone, and that each operation on them keeps. -/
structure QueueLaw (inv : State → Prop) : Prop where
  reads : ∀ {s t : State}, inv s → queuesOf t = queuesOf s → inv t
  offered : ∀ (n : Trib) (c : Cell) {s : State}, inv s → inv (offerDown n c s)
  takenUp : ∀ {n : Trib} {c : Cell} {s t : State}, takeUp n s = some (c, t) → inv s → inv t
  takenDown : ∀ {n : Trib} {c : Cell} {s t : State}, takeDown n s = some (c, t) → inv s → inv t
  arrived : ∀ (n : Trib) (c : Cell) {s : State}, inv s → inv (tribArrival n c s)
  ended : ∀ (n : Trib) {s : State}, inv s → inv (endIngress n s)
  flushedUp : ∀ (n : Trib) {s : State}, inv s → inv (flushUplink n s)
  flushedDown : ∀ (n : Trib) {s : State}, inv s → inv (flushDown n s)
  disabled : ∀ (n : Trib) {s : State}, inv s → inv (setIngress n .idle (cutAll n .portDisabled s))
  configured : ∀ {n : Trib} {e : PortEntry} {s : State}, portEntryOk e → roomFor (s.ports.table.set n e) s = true → inv s →
    inv (setTable (s.ports.table.set n e) s)
  restarted : ∀ (seq : Byte) {s : State}, inv s → inv (restartBlocks seq s)
  reset : ∀ (cause : ResetCause) (trunkSignal : Bool) (tribSignal : Vector Bool 8) (waiting : List Instr),
    inv (.afterHardReset cause trunkSignal tribSignal waiting)

/-- The settings WRITE PORT accepts are in range (R35, R50). -/
theorem portEntryOk_of_portEntryOf {operands : List Byte} {e : PortEntry} (h : portEntryOf operands = some e) : portEntryOk e := by
  unfold portEntryOf at h
  dsimp only at h
  split at h
  · split at h
    · next hrange =>
      obtain rfl := Option.some.inj h
      exact hrange
    · cases h
  · cases h

/-! ## Boundaries leave the cell store -/

theorem planAndSurvey_store {turn : Turn} {taking : State → State} (h : ∀ s, (taking s).store = s.store) (s : State) :
    (planAndSurvey turn taking s).store = s.store :=
  postBeside_leaves (field := State.store) (by simp) h s

theorem deliverBoundary_store {blocks : State → State} (h : ∀ s, (blocks s).store = s.store) (noticesLate : Bool) (s : State) :
    (deliverBoundary noticesLate blocks s).store = s.store := by
  unfold deliverBoundary
  dsimp only
  repeat' split
  all_goals simp [h, noticesTakeBoundary_leaves]

theorem boundaryEvent_store (order : BoundaryOrder) (s : State) : (boundaryEvent order s).store = s.store := by
  unfold boundaryEvent
  split
  · simp [surveyTakesBoundary_leaves]
  · exact deliverBoundary_store (planAndSurvey_store fun s => by simp [plansTakeBoundary_leaves, surveyCountsBoundary_eq]) _ s
  · exact deliverBoundary_store (planAndSurvey_store fun s => by simp [plansTakeBoundary_leaves, surveyCountsBoundary_eq]) _ s
  · exact deliverBoundary_store (fun s => by simp [plansTakeBoundary_leaves]) _ s

theorem revertEvent_store (s : State) : (revertEvent s).store = s.store := by
  unfold revertEvent
  split <;> simp [plansTakeBoundary_leaves]

theorem expiryEvent_store (s : State) : (expiryEvent s).store = s.store := by
  unfold expiryEvent
  split <;> simp [noticesTakeBoundary_leaves]

theorem surveyDoneEvent_store (s : State) : (surveyDoneEvent s).store = s.store := by
  unfold surveyDoneEvent
  split <;> simp [surveyTakesBoundary_leaves]

/-! ## The steps -/

/-- An event of the running part that keeps a law keeps it as a command. -/
theorem running_event_keeps (inv : State → Prop) {event : State → State} (he : ∀ {s}, inv s → inv (event s)) {s : State}
    (h : inv s) : inv (whileRunning s event) :=
  whileRunning_cases h fun _ => he h

namespace QueueLaw

variable {inv : State → Prop} (law : QueueLaw inv) {s : State}
include law

/-! ## Ports -/

theorem closeDownlink_keeps (n : Trib) (h : inv s) : inv (closeDownlink n s) :=
  law.reads (law.flushedDown n h) rfl

theorem portLockLost_keeps (turn : Turn) (n : Trib) (h : inv s) : inv (portLockLost turn n s) := by
  have recorded : inv (setRxLocked n false s) := law.reads h rfl
  have stateChange {s : State} (b a : PortState) (h : inv s) : inv (postStateChange n b a s) := law.reads h (by simp [queuesOf])
  unfold portLockLost
  dsimp only
  split
  · exact postBeside_cases (law.closeDownlink_keeps n (law.ended n (stateChange _ _ recorded)))
      (stateChange _ _ (law.closeDownlink_keeps n (law.ended n recorded)))
  · exact recorded

/-! ## Trunk arrivals -/

theorem writeConversion_keeps (n : Trib) (channel : Channel) (next : Index) (h : inv s) : inv (writeConversion n channel next s) := by
  unfold writeConversion
  split
  · split
    · exact law.reads (law.offered n (conversion channel next) h) rfl
    · exact law.offered n _ h
  · exact law.reads h rfl

theorem closeGivenUp_keeps (tag : Tag) (h : inv s) : inv (closeGivenUp tag s) := by
  unfold closeGivenUp
  split
  · next n channel next _ => exact law.reads (law.writeConversion_keeps n channel next h) rfl
  · exact law.reads h rfl
  · exact law.reads h rfl
  · exact h
  · exact h

theorem giveUpDown_keeps (tag : Tag) (n : Trib) (channel : Channel) (next : Index) (h : inv s) : inv (giveUpDown tag n channel next s) :=
  law.reads h rfl

theorem startDown_keeps (tag : Tag) (c : Cell) (h : inv s) : inv (startDown tag c s) := by
  have offered (e : ChannelEntry) : inv (offerDown e.trib { c with tag := e.channel.setWidth 10 } s) := law.offered _ _ h
  unfold startDown
  dsimp only
  split
  · split <;> exact law.reads h rfl
  · split
    · split <;> exact law.reads h rfl
    · split
      · split
        · exact law.reads (offered _) rfl
        · exact offered _
      · split
        · exact law.reads (offered _) rfl
        · exact offered _

theorem restartDown_keeps (tag : Tag) (c : Cell) (h : inv s) : inv (restartDown tag c s) := by
  unfold restartDown
  refine law.startDown_keeps tag c (law.reads h ?_)
  simp only [queuesOf, setCurrent_leaves]
  split <;> rfl

theorem malformedDown_keeps (c : Cell) (h : inv s) : inv (malformedDown c s) :=
  law.reads h (by simp [queuesOf])

theorem continueDown_keeps {between : State → State} (hb : ∀ {s}, inv s → inv (between s)) (tag : Tag) (n : Trib) (channel : Channel)
    (next : Index) (c : Cell) (h : inv s) : inv (continueDown between tag n channel next c s) := by
  unfold continueDown
  dsimp only
  split
  · have gap : inv (giveUpDown tag n channel next (countTrunk .bumpContinuation s)) :=
      law.giveUpDown_keeps tag n channel next (law.reads h rfl)
    split
    · exact law.closeGivenUp_keeps tag gap
    · exact gap
  · have offered : inv (offerDown n { c with tag := channel.setWidth 10 } s) := law.offered n _ h
    split
    · exact law.reads offered rfl
    · have refused := law.giveUpDown_keeps tag n channel next offered
      split
      · exact law.closeGivenUp_keeps tag (hb refused)
      · exact refused

theorem channelArrival_keeps {between : State → State} (hb : ∀ {s}, inv s → inv (between s)) (c : Cell) (h : inv s) :
    inv (channelArrival between c s) := by
  unfold channelArrival
  split
  case h_1 | h_2 => exact law.startDown_keeps c.tag c h
  case h_3 | h_4 => exact law.reads h rfl
  case h_5 | h_6 => exact law.continueDown_keeps hb _ _ _ _ c h
  case h_7 | h_8 | h_11 | h_12 | h_15 | h_16 => exact law.restartDown_keeps c.tag c h
  case h_9 | h_13 => exact h
  case h_10 | h_14 => exact law.closeGivenUp_keeps c.tag h

theorem handOn_keeps {between : State → State} (hb : ∀ {s}, inv s → inv (between s)) (l : Link) (c : Cell) (h : inv s) :
    inv (handOn between l c s) := by
  unfold handOn
  split
  · exact h
  · cases l with
    | tributary n => exact law.arrived n c h
    | trunk =>
      dsimp only
      unfold trunkArrival
      split
      · split
        · exact law.channelArrival_keeps hb c h
        · exact law.malformedDown_keeps c h
      · split
        · exact law.reads h (by simp [queuesOf])
        · exact law.reads h rfl

/-! ## Header tests and signals -/

theorem setReceiver_keeps (l : Link) (r : Receiver) (h : inv s) : inv (setReceiver l r s) := law.reads h (by simp [queuesOf])

theorem setSignal_keeps (l : Link) (b : Bool) (h : inv s) : inv (setSignal l b s) := law.reads h (by simp [queuesOf])

theorem reportLockLost_keeps (turn : Turn) (l : Link) (h : inv s) : inv (reportLockLost turn l s) := by
  cases l with
  | trunk => exact law.reads h (by simp [queuesOf, reportLockLost])
  | tributary n => exact law.portLockLost_keeps turn n h

theorem countBadHeader_keeps (l : Link) (h : inv s) : inv (countBadHeader l s) := by
  rw [countBadHeader_eq]
  exact law.reads h rfl

theorem seekTest_keeps (l : Link) (bytes : List Byte) (h : inv s) : inv (seekTest l bytes s) := by
  unfold seekTest
  dsimp only
  split
  · split <;> exact law.setReceiver_keeps l _ h
  · exact h

theorem enterLocked_keeps (turn : Turn) (l : Link) (bytes : List Byte) (h : inv s) : inv (enterLocked turn l bytes s) := by
  have recorded {r : Receiver} : inv (recordLocked l (setReceiver l r s)) := by
    refine law.reads (law.setReceiver_keeps l r h) ?_
    cases l <;> rfl
  have posted {s : State} (b a : Ports) (h : inv s) : inv (postLocked l b a s) := law.reads h (by simp [queuesOf])
  unfold enterLocked
  exact postBeside_cases (law.handOn_keeps id l _ (posted _ _ recorded)) (posted _ _ (law.handOn_keeps id l _ recorded))

theorem confirmTest_keeps (turn : Turn) (l : Link) (bytes : List Byte) (h : inv s) : inv (confirmTest turn l bytes s) := by
  unfold confirmTest
  dsimp only
  split
  · split
    · split
      · exact law.setReceiver_keeps l _ h
      · exact law.enterLocked_keeps turn l bytes h
    · exact law.setReceiver_keeps l _ h
  · exact h

theorem lockedTestWith_keeps {between : State → State} (hb : ∀ {s}, inv s → inv (between s)) (turn : Turn) (l : Link)
    (bytes : List Byte) (h : inv s) : inv (lockedTestWith between turn l bytes s) := by
  unfold lockedTestWith
  dsimp only
  split
  · split
    · exact law.handOn_keeps hb l _ (law.setReceiver_keeps l _ h)
    · split
      · exact law.countBadHeader_keeps l (law.setReceiver_keeps l _ h)
      · exact law.reportLockLost_keeps turn l (law.countBadHeader_keeps l (law.setReceiver_keeps l _ h))
  · exact h

theorem signalLossEvent_keeps (turn : Turn) (l : Link) (h : inv s) : inv (signalLossEvent turn l s) := by
  have sought := law.setReceiver_keeps l (seekAt 0) (law.setSignal_keeps l false h)
  unfold signalLossEvent
  dsimp only
  split
  · exact law.setSignal_keeps l false h
  · split
    · exact law.reportLockLost_keeps turn l sought
    · exact sought

theorem signalReturnEvent_keeps (l : Link) (h : inv s) : inv (signalReturnEvent l s) := by
  unfold signalReturnEvent
  split
  · exact h
  · split
    · exact law.setSignal_keeps l true h
    · exact law.setReceiver_keeps l _ (law.setSignal_keeps l true h)

/-! ## Slots and cell times -/

theorem sendAbandon_keeps (e : AbandonEntry) (rest : List AbandonEntry) (h : inv s) : inv (sendAbandon e rest s).state := law.reads h rfl

theorem afterSend_keeps (n : Trib) (c : Cell) (h : inv s) : inv (afterSend n c s) := by
  unfold afterSend
  split
  · exact law.reads h rfl
  · exact h

theorem decideSpare_keeps (h : inv s) : inv (decideSpare s).state := by
  have decided : inv { s with scheduler := { s.scheduler with borrow := borrowDecision s } } := law.reads h rfl
  unfold decideSpare
  split
  · exact law.sendAbandon_keeps _ _ h
  · dsimp only
    split
    · exact decided
    · split
      · next htake => exact law.afterSend_keeps _ _ (law.takenUp htake decided)
      · exact decided

theorem decideSlot_keeps (o : Owner) (h : inv s) : inv (decideSlot o s).state := by
  unfold decideSlot
  split
  · unfold decideOwn
    split
    · exact law.sendAbandon_keeps _ _ h
    · split
      · next htake => exact law.afterSend_keeps _ _ (law.takenUp htake h)
      · exact law.decideSpare_keeps h
  · unfold decideManagement
    split
    · exact law.reads h rfl
    · split
      · exact law.reads h rfl
      · exact law.decideSpare_keeps h
  · exact law.decideSpare_keeps h

theorem advanceSlot_keeps (length : Nat) (h : inv s) : inv (advanceSlot length s) := by
  unfold advanceSlot
  split <;> exact law.reads h rfl

theorem slotEvent_keeps (h : inv s) : inv (slotEvent s) := by
  unfold slotEvent
  split
  · exact h
  · have settled : inv (settleNotices s) := by
      unfold settleNotices
      split
      · exact h
      · exact law.reads h (by simp [queuesOf, noticesTakeBoundary_leaves])
    have decided := law.decideSlot_keeps ((settleNotices s).plans.running.owner (settleNotices s).scheduler.position) settled
    refine law.advanceSlot_keeps _ (law.reads decided ?_)
    simp only [queuesOf, reportSlot_leaves, surveyTakesBoundary_leaves]

theorem cellTimeEvent_keeps (n : Trib) (h : inv s) : inv (cellTimeEvent n s) := by
  unfold cellTimeEvent
  split
  · split
    · next htake => exact law.reads (law.takenDown htake h) rfl
    · exact law.reads h rfl
  · exact law.reads h rfl

/-! ## Executions -/

theorem complete_keeps (c : TakenCommand) (r : Result) (d : List Byte) (h : inv s) : inv (complete c r d s) := law.reads h rfl

theorem runCommand_keeps {k : CommandKind} {work : TakenCommand → State → State} (hw : ∀ c {s}, inv s → inv (work c s)) (h : inv s) :
    inv (runCommand k work s) :=
  runCommand_cases h (fun c _ _ => law.complete_keeps c _ _ (law.reads h rfl)) fun c _ _ => hw c (law.reads h rfl)

theorem of_carriage {t : State} (hc : carriage t = carriage s) (h : inv s) : inv t := by
  simp only [carriage, Prod.mk.injEq] at hc
  obtain ⟨-, -, hstore, hports, -⟩ := hc
  exact law.reads h (by simp only [queuesOf, hstore, hports])

theorem workRestart_keeps (c : TakenCommand) (h : inv s) : inv (workRestart c s) := law.complete_keeps c _ _ (law.restarted c.seq h)

theorem applyPortEntry_keeps {n : Trib} {e : PortEntry} (he : portEntryOk e) (hroom : roomFor (s.ports.table.set n e) s = true)
    (turn : Turn) (h : inv s) : inv (applyPortEntry turn n e s) := by
  have written := law.configured he hroom h
  have stateChange {s : State} (b a : PortState) (h : inv s) : inv (postStateChange n b a s) := law.reads h (by simp [queuesOf])
  have closed {s : State} (h : inv s) : inv (disableTraffic n s) := law.closeDownlink_keeps n (law.disabled n h)
  unfold applyPortEntry
  dsimp only
  split
  · exact postBeside_cases (closed (stateChange _ _ written)) (stateChange _ _ (closed written))
  · exact postBeside_cases (stateChange _ _ written) (stateChange _ _ written)

theorem workWritePort_keeps (turn : Turn) (c : TakenCommand) (h : inv s) : inv (workWritePort turn c s) := by
  unfold workWritePort
  dsimp only
  split
  · next he =>
    split
    · next hroom => exact law.complete_keeps c _ _ (law.applyPortEntry_keeps (portEntryOk_of_portEntryOf he) hroom turn h)
    · exact law.complete_keeps c _ _ h
  · exact law.complete_keeps c _ _ h

theorem workFlushPort_keeps (c : TakenCommand) (h : inv s) : inv (workFlushPort c s) := by
  unfold workFlushPort
  dsimp only
  split
  · next n _ =>
    split
    · exact law.complete_keeps c _ _ (law.flushedUp n h)
    · split
      · exact law.complete_keeps c _ _ (law.closeDownlink_keeps n h)
      · split
        · exact law.complete_keeps c _ _ (law.closeDownlink_keeps n (law.flushedUp n h))
        · exact law.complete_keeps c _ _ h
  · exact law.complete_keeps c _ _ h

/-! ## Every step -/

theorem runStoreEvent_keeps (e : StoreEvent) (h : inv s) : inv (runStoreEvent e s) := by
  cases e with
  | slot => exact law.slotEvent_keeps h
  | cellTime n => exact law.cellTimeEvent_keeps n h
  | headerTest n bytes turn =>
    simp only [runStoreEvent]
    split
    · exact law.confirmTest_keeps turn _ bytes h
    · exact law.lockedTestWith_keeps id turn _ bytes h
  | signalLoss n turn => exact law.signalLossEvent_keeps turn _ h
  | writePort turn => exact law.runCommand_keeps (fun c _ => law.workWritePort_keeps turn c) h
  | flushPort => exact law.runCommand_keeps (fun c _ => law.workFlushPort_keeps c) h

theorem runStoreEvents_keeps (events : List StoreEvent) : ∀ {s : State}, inv s → inv (runStoreEvents events s) := by
  induction events with
  | nil => exact id
  | cons e rest ih => exact fun h => ih (law.runStoreEvent_keeps e h)

/-- An event that leaves the cell store and the ports keeps the law. -/
theorem event_of_leaves {event : State → State} (hstore : ∀ s, (event s).store = s.store) (hports : ∀ s, (event s).ports = s.ports)
    (h : inv s) : inv (whileRunning s event) :=
  running_event_keeps inv (fun {s} h => law.reads h (by simp only [queuesOf, hstore s, hports s])) h

/-- A command whose work leaves the blocks that carry cells keeps the law. -/
theorem command_of_carriage {k : CommandKind} {work : TakenCommand → State → State}
    (hw : ∀ c s, carriage (work c s) = carriage s) (h : inv s) : inv (whileRunning s (runCommand k work)) :=
  running_event_keeps inv (law.runCommand_keeps fun c _ => law.of_carriage (hw c _)) h

theorem exec_keeps (i : Instr) (s t : State) (h : inv s) (ht : exec i s = .next t) : inv t := by
  cases i <;> injection ht with ht <;> subst ht
  case powerOn => exact law.reads h rfl
  case resetN =>
    unfold resetNEvent
    dsimp only
    split <;> exact law.reads h rfl
  case hardResetEnd =>
    unfold hardResetEndEvent
    split
    · exact law.reset ..
    · exact h
  case signalLoss l turn => exact law.signalLossEvent_keeps turn l h
  case signalReturn l => exact law.signalReturnEvent_keeps l h
  case seekHeaderTest l bytes => exact running_event_keeps inv (law.seekTest_keeps l bytes) h
  case confirmHeaderTest l bytes turn => exact running_event_keeps inv (law.confirmTest_keeps turn l bytes) h
  case lockedHeaderTest l bytes between turn =>
    exact running_event_keeps inv (law.lockedTestWith_keeps (law.runStoreEvents_keeps between) turn l bytes) h
  case slot => exact running_event_keeps inv law.slotEvent_keeps h
  case tributaryCellTime n => exact running_event_keeps inv (law.cellTimeEvent_keeps n) h
  case cycleBoundary order => exact law.event_of_leaves (boundaryEvent_store order) (fun s => (boundaryEvent_leaves order s).2.2) h
  case planReverted => exact law.event_of_leaves revertEvent_store (fun s => (revertEvent_leaves s).2.2) h
  case noticeRepeatExpiry => exact law.event_of_leaves expiryEvent_store (fun s => (expiryEvent_leaves s).2.2) h
  case surveyDone => exact law.event_of_leaves surveyDoneEvent_store (fun s => (surveyDoneEvent_leaves s).2.2) h
  case unknownKind => exact running_event_keeps inv (fun h => law.of_carriage (runUnknown_keeps (fun _ _ => rfl) _) h) h
  case restart => exact running_event_keeps inv (law.runCommand_keeps fun c _ => law.workRestart_keeps c) h
  case writePort turn => exact running_event_keeps inv (law.runCommand_keeps fun c _ => law.workWritePort_keeps turn c) h
  case flushPort => exact running_event_keeps inv (law.runCommand_keeps fun c _ => law.workFlushPort_keeps c) h
  case echo => exact law.command_of_carriage carriage_echo h
  case identify => exact law.command_of_carriage carriage_identify h
  case readStatus => exact law.command_of_carriage carriage_readStatus h
  case selectEditPlan => exact law.command_of_carriage carriage_selectEditPlan h
  case writeSlots => exact law.command_of_carriage carriage_writeSlots h
  case setCycleLength => exact law.command_of_carriage carriage_setCycleLength h
  case writeTributaryEntry => exact law.command_of_carriage carriage_writeTributaryEntry h
  case setPlanOptions => exact law.command_of_carriage carriage_setPlanOptions h
  case copyPlan => exact law.command_of_carriage carriage_copyPlan h
  case readSlots => exact law.command_of_carriage carriage_readSlots h
  case readTributaryEntry => exact law.command_of_carriage carriage_readTributaryEntry h
  case readPlanOptions => exact law.command_of_carriage carriage_readPlanOptions h
  case switchPlan => exact law.command_of_carriage carriage_switchPlan h
  case confirmPlan => exact law.command_of_carriage carriage_confirmPlan h
  case readPort => exact law.command_of_carriage carriage_readPort h
  case writeChannels => exact law.command_of_carriage carriage_writeChannels h
  case readChannel => exact law.command_of_carriage carriage_readChannel h
  case readCounters => exact law.command_of_carriage carriage_readCounters h
  case clearCounters => exact law.command_of_carriage carriage_clearCounters h
  case startSurvey => exact law.command_of_carriage carriage_startSurvey h
  case stopSurvey => exact law.command_of_carriage carriage_stopSurvey h
  case readSurvey => exact law.command_of_carriage carriage_readSurvey h
  case ackNotice => exact law.command_of_carriage carriage_ackNotice h
  case setNoticeOptions => exact law.command_of_carriage carriage_setNoticeOptions h

/-- A law of the queues outlives every step. -/
theorem every_step_keeps {t : State} (h : inv s) (ht : step s = .next t) : inv t :=
  step_keeps (fun _ _ h => law.reads h rfl) law.exec_keeps h ht

end QueueLaw
end Sys2Proof.Proofs.CellStore
end

section
/-! PROOFS. The law of the cell store: what leaves a queue returns its buffers, what joins one takes a buffer that its floor or the reserve
leaves it, and settings are written only when the store can back them (R17, R19, R20, R32). -/

namespace Sys2Proof.Proofs.CellStore

open Sys2Proof.Machine Sys2Proof.Safety Sys2Proof.Laws Sys2Proof.Proofs.CellLink

/-! ## Sums over the tributaries -/

theorem sum_allTribs (f : Trib → Nat) : (allTribs.map f).sum = ∑ n, f n := by
  simp [allTribs, Fin.sum_univ_eight, Nat.add_assoc]

/-- Two sums over the tributaries whose terms part at one tributary alone part by that term. -/
theorem sum_allTribs_of_others {f g : Trib → Nat} {n : Trib} (h : ∀ m, m ≠ n → f m = g m) :
    (allTribs.map f).sum + g n = (allTribs.map g).sum + f n := by
  have rest : ∑ m ∈ Finset.univ.erase n, f m = ∑ m ∈ Finset.univ.erase n, g m :=
    Finset.sum_congr rfl fun m hm => h m (Finset.ne_of_mem_erase hm)
  rw [sum_allTribs, sum_allTribs, ← Finset.add_sum_erase _ f (Finset.mem_univ n), ← Finset.add_sum_erase _ g (Finset.mem_univ n), rest]
  omega

/-! ## Moves of the queues of one tributary -/

theorem storeOk_congr {s t : State} (h : StoreOk s) (hstore : t.store = s.store) (htable : t.ports.table = s.ports.table) :
    StoreOk t := by
  simpa only [StoreOk, cellsHeld, State.reserve, hstore, htable] using h

/-- The store law after the queues of one tributary move, when cells and free buffers still add up and the reserve has room for the move. -/
theorem storeOk_of_moved {n : Trib} {s t : State} (h : StoreOk s) (htable : t.ports.table = s.ports.table)
    (others : ∀ m, m ≠ n → t.store.up[m] = s.store.up[m] ∧ t.store.down[m] = s.store.down[m])
    (hcells : t.store.free + (t.store.up[n].cells.length + t.store.down[n].length) =
      s.store.free + (s.store.up[n].cells.length + s.store.down[n].length))
    (hreserve : s.reserve + tribShortfall s.ports.table[n] t.store n ≤ t.store.free + tribShortfall s.ports.table[n] s.store n)
    (hlength : t.store.up[n].cells.length ≤ 128 ∧ t.store.down[n].length ≤ 128) : StoreOk t := by
  have ⟨hbuffers, _, hfloors, hentries, hlengths⟩ := h
  have hheld : cellsHeld t + (s.store.up[n].cells.length + s.store.down[n].length) =
      cellsHeld s + (t.store.up[n].cells.length + t.store.down[n].length) :=
    sum_allTribs_of_others (f := fun m => t.store.up[m].cells.length + t.store.down[m].length)
      (g := fun m => s.store.up[m].cells.length + s.store.down[m].length) fun m hm => by rw [(others m hm).1, (others m hm).2]
  have hres : t.reserve + tribShortfall s.ports.table[n] s.store n = s.reserve + tribShortfall s.ports.table[n] t.store n := by
    unfold State.reserve reserveOf
    rw [htable]
    exact sum_allTribs_of_others (f := fun m => tribShortfall s.ports.table[m] t.store m)
      (g := fun m => tribShortfall s.ports.table[m] s.store m) fun m hm => by simp only [tribShortfall, others m hm]
  refine ⟨by omega, by omega, by rwa [htable], by rwa [htable], fun m => ?_⟩
  by_cases hm : m = n
  · exact hm ▸ hlength
  · rw [(others m hm).1, (others m hm).2]
    exact hlengths m

/-- Cells that leave the queues of one tributary return their buffers (R17): a shortfall rises by no more than leaves. -/
theorem storeOk_of_freed {n : Trib} {s t : State} (h : StoreOk s) (htable : t.ports.table = s.ports.table)
    (others : ∀ m, m ≠ n → t.store.up[m] = s.store.up[m] ∧ t.store.down[m] = s.store.down[m])
    (hcells : t.store.free + (t.store.up[n].cells.length + t.store.down[n].length) =
      s.store.free + (s.store.up[n].cells.length + s.store.down[n].length))
    (hup : t.store.up[n].cells.length ≤ s.store.up[n].cells.length) (hdown : t.store.down[n].length ≤ s.store.down[n].length) :
    StoreOk t := by
  have ⟨_, hreserve, _, _, hlengths⟩ := h
  refine storeOk_of_moved h htable others hcells ?_ ⟨hup.trans (hlengths n).1, hdown.trans (hlengths n).2⟩
  simp only [tribShortfall, shortfall]
  omega

/-! ## Offers -/

/-- The reserve covers what each tributary's queues fall short of their floors (R19). -/
theorem tribShortfall_le_reserve (n : Trib) (s : State) : tribShortfall s.ports.table[n] s.store n ≤ s.reserve := by
  unfold State.reserve reserveOf
  rw [sum_allTribs]
  exact Finset.single_le_sum (f := fun m : Trib => tribShortfall s.ports.table[m] s.store m) (fun _ _ => Nat.zero_le _)
    (Finset.mem_univ n)

theorem storeOk_offerUp (n : Trib) (c : Cell) {s : State} (h : StoreOk s) : StoreOk (offerUp n c s) := by
  by_cases hj : judgeUp n s = .admitted
  · obtain ⟨hceiling, hroom⟩ := judgeOffer_admitted.mp hj
    have ⟨_, hreserve, _, hentries, hlengths⟩ := h
    obtain ⟨-, -, -, hmax, -⟩ := hentries n
    have hshort := tribShortfall_le_reserve n s
    simp only [tribShortfall, shortfall] at hshort
    have hstore := offerUp_store_of_admitted (c := c) hj
    refine storeOk_of_moved (n := n) h (by simp) (fun m hm => ?_) ?_ ?_ ?_
    · rw [hstore]
      exact ⟨get_set_other _ hm _, rfl⟩
    all_goals simp only [hstore, get_set_same, UpQueue.push, List.length_append, List.length_singleton, tribShortfall, shortfall]
    all_goals have := hlengths n
    all_goals omega
  · exact storeOk_congr h (offerUp_store_of_refused hj) (by simp)

theorem storeOk_offerDown (n : Trib) (c : Cell) {s : State} (h : StoreOk s) : StoreOk (offerDown n c s) := by
  by_cases hj : judgeDown n s = .admitted
  · obtain ⟨hceiling, hroom⟩ := judgeOffer_admitted.mp hj
    have ⟨_, hreserve, _, hentries, hlengths⟩ := h
    obtain ⟨-, -, -, -, -, hmax, -⟩ := hentries n
    have hshort := tribShortfall_le_reserve n s
    simp only [tribShortfall, shortfall] at hshort
    have hstore := offerDown_store_of_admitted (c := c) hj
    refine storeOk_of_moved (n := n) h (by simp) (fun m hm => ?_) ?_ ?_ ?_
    · rw [hstore]
      exact ⟨rfl, get_set_other _ hm _⟩
    all_goals simp only [hstore, get_set_same, List.length_append, List.length_singleton, tribShortfall, shortfall]
    all_goals have := hlengths n
    all_goals omega
  · exact storeOk_congr h (offerDown_store_of_refused hj) (by simp)

/-! ## Takes, cuts and flushes -/

theorem storeOk_takeUp {n : Trib} {c : Cell} {s t : State} (ht : takeUp n s = some (c, t)) (h : StoreOk s) : StoreOk t := by
  obtain ⟨rest, hcells, rfl⟩ := takeUp_eq_some ht
  refine storeOk_of_freed (n := n) h rfl (fun m hm => ⟨get_set_other _ hm _, rfl⟩) ?_ ?_ le_rfl
  all_goals simp only [hcells, get_set_same, UpQueue.afterTake, List.length_cons]
  all_goals omega

theorem storeOk_takeDown {n : Trib} {c : Cell} {s t : State} (ht : takeDown n s = some (c, t)) (h : StoreOk s) : StoreOk t := by
  obtain ⟨rest, hcells, rfl⟩ := takeDown_eq_some ht
  refine storeOk_of_freed (n := n) h rfl (fun m hm => ⟨rfl, get_set_other _ hm _⟩) ?_ le_rfl ?_
  all_goals simp only [hcells, countDown_leaves, freeBuffers_store, setDown_store, get_set_same, List.length_cons]
  all_goals omega

theorem storeOk_cutOpen (n : Trib) (cause : CutCause) {s : State} (h : StoreOk s) : StoreOk (cutOpen n cause s) := by
  have hkept := completePart_length_le s.store.up[n].cells
  refine storeOk_of_freed (n := n) h (by simp) (fun m hm => ?_) ?_ ?_ ?_
  · rw [cutOpen_store]
    exact ⟨get_set_other _ hm _, rfl⟩
  all_goals simp only [cutOpen_store, get_set_same]
  all_goals omega

theorem storeOk_cutAll (n : Trib) (cause : CutCause) {s : State} (h : StoreOk s) : StoreOk (cutAll n cause s) := by
  refine storeOk_of_freed (n := n) h (by simp) (fun m hm => ?_) ?_ ?_ ?_
  · rw [cutAll_store]
    exact ⟨get_set_other _ hm _, rfl⟩
  all_goals simp only [cutAll_store, get_set_same, UpQueue.empty, List.length_nil]
  all_goals omega

theorem storeOk_flushDown (n : Trib) {s : State} (h : StoreOk s) : StoreOk (flushDown n s) := by
  refine storeOk_of_freed (n := n) h rfl (fun m hm => ⟨rfl, get_set_other _ hm _⟩) ?_ le_rfl ?_
  all_goals simp only [flushDown_store, get_set_same, List.length_nil]
  all_goals omega

/-! ## Arrivals -/

theorem storeOk_setIngress {n : Trib} {i : Ingress} {s : State} (h : StoreOk s) : StoreOk (setIngress n i s) := storeOk_congr h rfl rfl

theorem storeOk_startMessage (n : Trib) (c : Cell) {s : State} (h : StoreOk s) : StoreOk (startMessage n c s) :=
  storeOk_setIngress (storeOk_offerUp n _ h)

theorem storeOk_giveUpAt (n : Trib) (cause : CutCause) (c : Cell) {s : State} (h : StoreOk s) : StoreOk (giveUpAt n cause c s) :=
  storeOk_setIngress (storeOk_cutOpen n cause h)

theorem storeOk_continueMessage (n : Trib) (tag : Tag) (channel : Channel) (limit admitted : Nat) (next : Index) (c : Cell) {s : State}
    (h : StoreOk s) : StoreOk (continueMessage n tag channel limit admitted next c s) := by
  unfold continueMessage
  split
  · exact storeOk_giveUpAt n _ c h
  · split
    · exact storeOk_giveUpAt n _ c h
    · split
      · exact storeOk_setIngress (storeOk_offerUp n _ h)
      · exact storeOk_giveUpAt n _ c (storeOk_offerUp n _ h)

theorem storeOk_malformedUp (n : Trib) {s : State} (h : StoreOk s) : StoreOk (malformedUp n s) := by
  have counted : StoreOk (countUp n .bumpMalformed s) := storeOk_congr h rfl rfl
  unfold malformedUp
  dsimp only
  split
  · exact storeOk_setIngress (storeOk_cutOpen n _ counted)
  · exact counted
  · exact counted

theorem storeOk_tribArrival (n : Trib) (c : Cell) {s : State} (h : StoreOk s) : StoreOk (tribArrival n c s) := by
  unfold tribArrival
  split
  · exact storeOk_congr h rfl rfl
  · split
    · exact storeOk_malformedUp n h
    · split
      · unfold ingressIdle
        split
        · exact storeOk_startMessage n c h
        · exact storeOk_startMessage n c h
        · exact storeOk_congr h rfl rfl
        · exact storeOk_congr h rfl rfl
      · unfold ingressOpen
        split
        · exact storeOk_startMessage n c (storeOk_cutOpen n _ h)
        · exact storeOk_startMessage n c (storeOk_cutOpen n _ h)
        · exact storeOk_continueMessage n _ _ _ _ _ c h
        · exact storeOk_continueMessage n _ _ _ _ _ c h
      · unfold ingressDiscarding
        split
        · exact storeOk_startMessage n c h
        · exact storeOk_startMessage n c h
        · exact h
        · exact storeOk_setIngress h

theorem storeOk_endIngress (n : Trib) {s : State} (h : StoreOk s) : StoreOk (endIngress n s) := by
  unfold endIngress
  split
  · exact storeOk_setIngress (storeOk_cutOpen n _ h)
  · exact h
  · exact storeOk_setIngress h

theorem storeOk_flushUplink (n : Trib) {s : State} (h : StoreOk s) : StoreOk (flushUplink n s) := by
  have cut := storeOk_cutAll n .flushed h
  unfold flushUplink
  dsimp only
  split
  · exact storeOk_setIngress cut
  · exact cut
  · exact cut

/-! ## Settings and RESTART -/

/-- Settings in range that the store has room for may be written (R32). -/
theorem storeOk_setTable {n : Trib} {e : PortEntry} {s : State} (he : portEntryOk e) (hroom : roomFor (s.ports.table.set n e) s = true)
    (h : StoreOk s) : StoreOk (setTable (s.ports.table.set n e) s) := by
  obtain ⟨hbuffers, -, -, hentries, hlengths⟩ := h
  obtain ⟨hfloors, hreserve⟩ := of_decide_eq_true hroom
  refine ⟨hbuffers, hreserve, hfloors, fun m => ?_, hlengths⟩
  rw [setTable_ports]
  dsimp only
  rw [get_set]
  split
  · exact he
  · exact hentries m

/-- Empty queues fall short of the floors by the whole floors, which add up to less than the store (R19, R33). -/
theorem reserveOf_of_empty {table : Vector PortEntry 8} {st : CellStore} (h : ∀ n : Trib, st.up[n].cells = [] ∧ st.down[n] = []) :
    reserveOf table st = floorSum table := by
  simp only [reserveOf, floorSum, tribShortfall, shortfall, h, List.length_nil, Nat.sub_zero]

theorem restarted_queues (n : Trib) : CellStore.restarted.up[n] = .empty ∧ CellStore.restarted.down[n] = [] := by
  simp [CellStore.restarted]

theorem storeOk_restartBlocks (seq : Byte) {s : State} (h : StoreOk s) : StoreOk (restartBlocks seq s) := by
  obtain ⟨-, -, hfloors, hentries, -⟩ := h
  have hempty (n : Trib) : CellStore.restarted.up[n].cells = [] ∧ CellStore.restarted.down[n] = [] := by
    obtain ⟨hup, hdown⟩ := restarted_queues n
    exact ⟨by rw [hup]; rfl, hdown⟩
  have hreserve : (restartBlocks seq s).reserve = floorSum s.ports.table := reserveOf_of_empty hempty
  have hheld : cellsHeld (restartBlocks seq s) = 0 := by
    simp only [cellsHeld, restartBlocks, hempty]
    rfl
  refine ⟨by rw [hheld]; rfl, ?_, hfloors, hentries, fun n => ?_⟩
  · rw [hreserve]
    exact hfloors.trans (show 384 ≤ 512 by decide)
  · simp only [restartBlocks, hempty]
    decide

/-! ## Every step -/

theorem queueLaw_storeOk : QueueLaw StoreOk where
  reads h hq := by
    simp only [queuesOf, Prod.mk.injEq] at hq
    exact storeOk_congr h hq.1 hq.2.1
  offered n c _ h := storeOk_offerDown n c h
  takenUp := storeOk_takeUp
  takenDown := storeOk_takeDown
  arrived n c _ h := storeOk_tribArrival n c h
  ended n _ h := storeOk_endIngress n h
  flushedUp n _ h := storeOk_flushUplink n h
  flushedDown n _ h := storeOk_flushDown n h
  disabled n _ h := storeOk_setIngress (storeOk_cutAll n _ h)
  configured := storeOk_setTable
  restarted seq _ h := storeOk_restartBlocks seq h
  reset := storeOk_afterHardReset

/-- Settles O4: the store law is a law of the queues. -/
theorem stepKeepsStoreLaw : Obligations.StepKeepsStoreLaw := by
  unfold Obligations.StepKeepsStoreLaw
  intro s t h ht
  exact queueLaw_storeOk.every_step_keeps h ht

end Sys2Proof.Proofs.CellStore
end

section
/-! PROOFS. The law of uplink messages: what each operation on an uplink queue makes of the run of messages in it and of its message open at
the port (R3, R18, R25 to R28, R40 to R47). -/

namespace Sys2Proof.Proofs.CellStore

open Sys2Proof.Machine Sys2Proof.Safety Sys2Proof.Laws Sys2Proof.Proofs.CellLink

/-! ## Runs of messages -/

theorem streamAfter_cons (current : Option HeadMessage) (c : Cell) (cs : List Cell) :
    streamAfter current (c :: cs) = (streamNext current c).bind fun after => streamAfter after cs := by
  rw [streamAfter]
  cases streamNext current c <;> rfl

theorem streamAfter_append (xs ys : List Cell) : ∀ current : Option HeadMessage,
    streamAfter current (xs ++ ys) = (streamAfter current xs).bind fun after => streamAfter after ys := by
  induction xs with
  | nil => exact fun _ => rfl
  | cons x xs ih =>
    intro current
    rw [List.cons_append, streamAfter_cons, streamAfter_cons]
    cases streamNext current x with
    | none => rfl
    | some after => exact ih after

theorem streamAfter_concat (current : Option HeadMessage) (cs : List Cell) (c : Cell) :
    streamAfter current (cs ++ [c]) = (streamAfter current cs).bind fun after => streamNext after c := by
  rw [streamAfter_append]
  congr
  funext after
  rw [streamAfter_cons]
  cases streamNext after c <;> rfl

/-- No message is in progress after an end cell (R3). -/
theorem streamNext_of_isEnd {current after : Option HeadMessage} {c : Cell} (he : c.isEnd = true) (h : streamNext current c = some after) :
    after = none := by
  obtain hp | hp := isEnd_iff.mp he
  · cases current with
    | none => simp [streamNext, hp] at h
    | some m =>
      simp only [streamNext, hp] at h
      split at h
      · exact (Option.some.inj h).symm
      · cases h
  · cases current with
    | none =>
      simp only [streamNext, hp] at h
      split at h
      · exact (Option.some.inj h).symm
      · cases h
    | some m => simp [streamNext, hp] at h

/-- The bookkeeping after a take is the message that the cell taken leaves in progress (R26). -/
theorem headAfter_of_streamNext {head after : Option HeadMessage} {c : Cell} (h : streamNext head c = some after) :
    headAfter head c = after := by
  cases hp : c.position with
  | first =>
    cases head with
    | none =>
      simp only [streamNext, hp] at h
      split at h
      · simpa [headAfter, hp] using h
      · cases h
    | some m => simp [streamNext, hp] at h
  | middle =>
    cases head with
    | none => simp [streamNext, hp] at h
    | some m =>
      simp only [streamNext, hp] at h
      split at h
      · simpa [headAfter, hp] using h
      · cases h
  | last =>
    rw [streamNext_of_isEnd (isEnd_iff.mpr (.inl hp)) h]
    simp [headAfter, hp]
  | sole =>
    rw [streamNext_of_isEnd (isEnd_iff.mpr (.inr hp)) h]
    simp [headAfter, hp]

/-- A run of messages up to its newest end cell has none in progress; with no end cell nothing is left of it (R27). -/
theorem streamAfter_completePart {head after : Option HeadMessage} {cells : List Cell} (h : streamAfter head cells = some after) :
    streamAfter (if countEnds cells = 0 then none else head) (completePart cells) = some none := by
  obtain hnil | ⟨init, last, hlast⟩ := List.eq_nil_or_concat (completePart cells)
  · have hends : countEnds cells = 0 := by
      rw [← countEnds_completePart, hnil]
      rfl
    rw [if_pos hends, hnil]
    rfl
  · rw [List.concat_eq_append] at hlast
    have hend : last.isEnd = true := isEnd_of_getLast?_completePart (cells := cells) (by rw [hlast, List.getLast?_concat])
    have hends : countEnds cells ≠ 0 := by
      rw [← countEnds_completePart, hlast]
      simp [countEnds, hend]
    obtain ⟨tail, htail, -⟩ := completePart_append cells
    rw [← htail, streamAfter_append] at h
    obtain ⟨kept, hkept, -⟩ := Option.bind_eq_some_iff.mp h
    rw [if_neg hends, hkept]
    rw [hlast, streamAfter_concat] at hkept
    obtain ⟨before, -, hnext⟩ := Option.bind_eq_some_iff.mp hkept
    rw [streamNext_of_isEnd hend hnext]

/-! ## One uplink queue -/

/-- The law of uplink messages at one tributary: its queue, and the ingress record of its port. -/
def QueueWhole (q : UpQueue) (i : Ingress) : Prop :=
  streamAfter q.head q.cells = some (openMessage i) ∧ q.complete = countEnds q.cells

theorem countEnds_cons (c : Cell) (cs : List Cell) : countEnds (c :: cs) = countEnds cs + if c.isEnd then 1 else 0 := by
  unfold countEnds
  cases hc : c.isEnd <;> simp [hc]

theorem countEnds_concat (cs : List Cell) (c : Cell) : countEnds (cs ++ [c]) = countEnds cs + if c.isEnd then 1 else 0 := by
  unfold countEnds
  cases hc : c.isEnd <;> simp [hc]

theorem QueueWhole.congr {q : UpQueue} {i j : Ingress} (h : QueueWhole q i) (hj : openMessage j = openMessage i) : QueueWhole q j := by
  simpa only [QueueWhole, hj] using h

/-- A cell that goes on with the message open at the port, or begins one where none is, may join the tail (R25). -/
theorem QueueWhole.push {q : UpQueue} {i j : Ingress} {c : Cell} (h : QueueWhole q i)
    (hc : streamNext (openMessage i) c = some (openMessage j)) : QueueWhole (q.push c) j := by
  obtain ⟨hstream, hcount⟩ := h
  constructor
  · simp only [UpQueue.push]
    rw [streamAfter_concat, hstream]
    exact hc
  · simp only [UpQueue.push]
    rw [countEnds_concat, hcount]

/-- The head cell may be taken (R25, R26). -/
theorem QueueWhole.afterTake {q : UpQueue} {i : Ingress} {c : Cell} {rest : List Cell} (h : QueueWhole q i) (hq : q.cells = c :: rest) :
    QueueWhole (q.afterTake c rest) i := by
  obtain ⟨hstream, hcount⟩ := h
  rw [hq, streamAfter_cons] at hstream
  obtain ⟨after, hnext, hafter⟩ := Option.bind_eq_some_iff.mp hstream
  constructor
  · simp only [UpQueue.afterTake]
    rw [headAfter_of_streamNext hnext]
    exact hafter
  · simp only [UpQueue.afterTake]
    rw [hcount, hq, countEnds_cons, Nat.add_sub_cancel]

/-- Cut of its open message, a queue holds whole messages alone (R27). -/
theorem QueueWhole.cutOpen {q : UpQueue} {i j : Ingress} (h : QueueWhole q i) (hj : openMessage j = none) :
    QueueWhole { cells := completePart q.cells, complete := q.complete, head := if q.complete = 0 then none else q.head } j := by
  obtain ⟨hstream, hcount⟩ := h
  constructor
  · simp only [hcount, hj]
    exact streamAfter_completePart hstream
  · rw [countEnds_completePart, hcount]

theorem QueueWhole.empty {j : Ingress} (hj : openMessage j = none) : QueueWhole .empty j := by
  rw [QueueWhole, hj]
  exact ⟨rfl, rfl⟩

/-! ## The queues of the part -/

theorem uplinkOk_congr {s t : State} (h : UplinkOk s) (hup : t.store.up = s.store.up) (hingress : t.ports.ingress = s.ports.ingress) :
    UplinkOk t := by
  simpa only [UplinkOk, hup, hingress] using h

/-- An ingress record written: the law asks of the other queues what it asked, and of this one that it is whole by the new record. -/
theorem uplinkOk_setIngress_iff {n : Trib} {i : Ingress} {s : State} :
    UplinkOk (setIngress n i s) ↔
      (∀ m, m ≠ n → QueueWhole s.store.up[m] s.ports.ingress[m]) ∧ QueueWhole s.store.up[n] i := by
  constructor
  · intro h
    refine ⟨fun m hm => ?_, ?_⟩
    · have hm' := h m
      rwa [setIngress_ports, get_set_other _ hm] at hm'
    · have hn := h n
      rwa [setIngress_ports, get_set_same] at hn
  · rintro ⟨others, hn⟩ m
    rw [setIngress_ports]
    dsimp only
    rw [get_set]
    split
    · next hm => exact hm ▸ hn
    · next hm => exact others m hm

/-- An uplink queue moves, and its ingress record with it. -/
theorem uplinkOk_setIngress_of_moved {n : Trib} {i : Ingress} {q : UpQueue} {s t : State}
    (others : ∀ m, m ≠ n → QueueWhole s.store.up[m] s.ports.ingress[m]) (hup : t.store.up = s.store.up.set n q)
    (hingress : t.ports.ingress = s.ports.ingress) (hq : QueueWhole q i) : UplinkOk (setIngress n i t) := by
  refine uplinkOk_setIngress_iff.mpr ⟨fun m hm => ?_, ?_⟩
  · rw [hup, hingress, get_set_other _ hm]
    exact others m hm
  · rw [hup, get_set_same]
    exact hq

theorem setIngress_self (n : Trib) (s : State) : setIngress n s.ports.ingress[n] s = s := by
  have hself : s.ports.ingress.set n s.ports.ingress[n] = s.ports.ingress := Vector.set_getElem_self n.isLt
  simp only [setIngress, hself]

theorem uplinkOk_others {s : State} (h : UplinkOk s) (n : Trib) : ∀ m, m ≠ n → QueueWhole s.store.up[m] s.ports.ingress[m] :=
  fun m _ => h m

/-- A record rewritten with the same message open, or none as before, keeps the law. -/
theorem uplinkOk_setIngress {n : Trib} {i : Ingress} {s : State} (h : UplinkOk s)
    (hi : openMessage i = openMessage s.ports.ingress[n]) : UplinkOk (setIngress n i s) :=
  uplinkOk_setIngress_iff.mpr ⟨uplinkOk_others h n, QueueWhole.congr (h n) hi⟩

/-- The record may be set to any that holds no message open once the open message is cut (R27). -/
theorem uplinkOk_cutOpen {n : Trib} {i : Ingress} {s : State} (h : UplinkOk s) (cause : CutCause) (hi : openMessage i = none) :
    UplinkOk (setIngress n i (cutOpen n cause s)) :=
  uplinkOk_setIngress_of_moved (uplinkOk_others h n) (by rw [cutOpen_store]) (by simp) (QueueWhole.cutOpen (h n) hi)

/-- The record may be set to any that holds no message open once all of the queue is cut (R28). -/
theorem uplinkOk_cutAll {n : Trib} {i : Ingress} {s : State} (h : UplinkOk s) (cause : CutCause) (hi : openMessage i = none) :
    UplinkOk (setIngress n i (cutAll n cause s)) :=
  uplinkOk_setIngress_of_moved (uplinkOk_others h n) (by rw [cutAll_store]) (by simp) (QueueWhole.empty hi)

/-- An admitted cell that goes on with the message of a record, or begins one where none is open, leaves the record it makes (R40, R44). -/
theorem uplinkOk_offerUp_of_admitted {n : Trib} {i j : Ingress} {c : Cell} {s : State} (h : UplinkOk (setIngress n i s))
    (hj : judgeUp n s = .admitted) (hc : streamNext (openMessage i) c = some (openMessage j)) :
    UplinkOk (setIngress n j (offerUp n c s)) := by
  obtain ⟨others, hn⟩ := uplinkOk_setIngress_iff.mp h
  exact uplinkOk_setIngress_of_moved others (by rw [offerUp_store_of_admitted hj]) (by simp) (hn.push hc)

/-- A refused cell leaves the queue (R21). -/
theorem uplinkOk_offerUp_of_refused {n : Trib} {i : Ingress} {c : Cell} {s : State} (h : UplinkOk (setIngress n i s))
    (hj : judgeUp n s ≠ .admitted) : UplinkOk (setIngress n i (offerUp n c s)) := by
  refine uplinkOk_congr h ?_ (by simp)
  simp [offerUp_store_of_refused hj]

/-! ## Arrivals -/

/-- A well-formed FIRST or SOLE carries index 0 (R5). -/
theorem index_of_wellFormed {c : Cell} (h : c.wellFormedTributary = true) (hp : c.position = .first ∨ c.position = .sole) :
    c.index = 0 := by
  simp only [Cell.wellFormedTributary, Cell.fieldsOk, Bool.and_eq_true] at h
  obtain ⟨hfields, -⟩ := h
  obtain hp | hp := hp
  · simp only [hp, Bool.and_eq_true, beq_iff_eq] at hfields
    exact hfields.2
  · simp only [hp, Bool.and_eq_true, beq_iff_eq] at hfields
    exact hfields.2

/-- A FIRST or SOLE judged with no message open (R40, R41). -/
theorem uplinkOk_startMessage {n : Trib} {c : Cell} {s : State} (h : UplinkOk (setIngress n .idle s))
    (hp : c.position = .first ∨ c.position = .sole) (hindex : c.index = 0) : UplinkOk (startMessage n c s) := by
  unfold startMessage
  dsimp only
  by_cases hj : judgeUp n s = .admitted
  · rw [if_pos hj]
    obtain hp | hp := hp
    · rw [if_pos hp]
      exact uplinkOk_offerUp_of_admitted h hj (by simp [streamNext, openMessage, hp, hindex])
    · rw [if_neg (by simp [hp])]
      exact uplinkOk_offerUp_of_admitted h hj (by simp [streamNext, openMessage, hp, hindex])
  · rw [if_neg hj]
    have refused := uplinkOk_setIngress_iff.mp (uplinkOk_offerUp_of_refused (c := { c with tag := latchTag n c s }) h hj)
    obtain ⟨others, hn⟩ := refused
    refine uplinkOk_setIngress_iff.mpr ⟨others, hn.congr ?_⟩
    split <;> rfl

theorem uplinkOk_giveUpAt {n : Trib} {s : State} (h : UplinkOk s) (cause : CutCause) (c : Cell) : UplinkOk (giveUpAt n cause c s) := by
  refine uplinkOk_cutOpen h cause ?_
  unfold afterGivingUp
  split <;> rfl

/-- A MIDDLE or LAST on the open message: it goes on with it, ends it, or has it cut (R43 to R45). -/
theorem uplinkOk_continueMessage {n : Trib} {tag : Tag} {channel : Channel} {limit admitted : Nat} {next : Index} {c : Cell} {s : State}
    (h : UplinkOk s) (hopen : s.ports.ingress[n] = .opened tag channel limit admitted next)
    (hp : c.position = .middle ∨ c.position = .last) : UplinkOk (continueMessage n tag channel limit admitted next c s) := by
  have recorded : UplinkOk (setIngress n (.opened tag channel limit admitted next) s) := by rwa [← hopen, setIngress_self]
  unfold continueMessage
  split
  · exact uplinkOk_giveUpAt h _ c
  · next hcontinues =>
    have hindex : c.index = next := by simpa using (not_or.mp hcontinues).2
    split
    · exact uplinkOk_giveUpAt h _ c
    · split
      · next hj =>
        obtain hp | hp := hp
        · rw [if_neg (by simp [hp])]
          exact uplinkOk_offerUp_of_admitted recorded hj (by simp [streamNext, openMessage, hp, hindex])
        · rw [if_pos hp]
          exact uplinkOk_offerUp_of_admitted recorded hj (by simp [streamNext, openMessage, hp, hindex])
      · next hj =>
        exact uplinkOk_giveUpAt (uplinkOk_congr h (by rw [offerUp_store_of_refused hj]) (by simp)) _ c

theorem uplinkOk_malformedUp {n : Trib} {s : State} (h : UplinkOk s) : UplinkOk (malformedUp n s) := by
  have counted : UplinkOk (countUp n .bumpMalformed s) := uplinkOk_congr h rfl rfl
  unfold malformedUp
  dsimp only
  split
  · exact uplinkOk_cutOpen counted _ rfl
  · exact counted
  · exact counted

theorem uplinkOk_tribArrival {n : Trib} {c : Cell} {s : State} (h : UplinkOk s) : UplinkOk (tribArrival n c s) := by
  unfold tribArrival
  split
  · exact uplinkOk_congr h rfl rfl
  · split
    · exact uplinkOk_malformedUp h
    · next hwf =>
      have hindex := index_of_wellFormed (c := c) (by simpa using hwf)
      split
      · next hidle =>
        have idle : UplinkOk (setIngress n .idle s) := uplinkOk_setIngress h (by rw [hidle])
        unfold ingressIdle
        split
        · next hp => exact uplinkOk_startMessage idle (.inl hp) (hindex (.inl hp))
        · next hp => exact uplinkOk_startMessage idle (.inr hp) (hindex (.inr hp))
        · exact uplinkOk_congr h rfl rfl
        · exact uplinkOk_congr h rfl rfl
      · next hopen =>
        have cut : UplinkOk (setIngress n .idle (cutOpen n .firstWhileOpen s)) := uplinkOk_cutOpen h _ rfl
        unfold ingressOpen
        split
        · next hp => exact uplinkOk_startMessage cut (.inl hp) (hindex (.inl hp))
        · next hp => exact uplinkOk_startMessage cut (.inr hp) (hindex (.inr hp))
        · next hp => exact uplinkOk_continueMessage h hopen (.inl hp)
        · next hp => exact uplinkOk_continueMessage h hopen (.inr hp)
      · next hdiscarding =>
        have idle : UplinkOk (setIngress n .idle s) := uplinkOk_setIngress h (by rw [hdiscarding]; rfl)
        unfold ingressDiscarding
        split
        · next hp => exact uplinkOk_startMessage idle (.inl hp) (hindex (.inl hp))
        · next hp => exact uplinkOk_startMessage idle (.inr hp) (hindex (.inr hp))
        · exact h
        · exact idle

/-! ## Takes, cuts and RESTART -/

theorem uplinkOk_takeUp {n : Trib} {c : Cell} {s t : State} (ht : takeUp n s = some (c, t)) (h : UplinkOk s) : UplinkOk t := by
  obtain ⟨rest, hcells, rfl⟩ := takeUp_eq_some ht
  intro m
  dsimp only
  rw [get_set]
  split
  · next hm =>
    subst hm
    exact QueueWhole.afterTake (h m) hcells
  · exact h m

theorem uplinkOk_endIngress {n : Trib} {s : State} (h : UplinkOk s) : UplinkOk (endIngress n s) := by
  unfold endIngress
  split
  · exact uplinkOk_cutOpen h _ rfl
  · exact h
  · next hdiscarding => exact uplinkOk_setIngress h (by rw [hdiscarding]; rfl)

theorem uplinkOk_flushUplink {n : Trib} {s : State} (h : UplinkOk s) : UplinkOk (flushUplink n s) := by
  have unopened {i : Ingress} (hi : s.ports.ingress[n] = i) (hopen : openMessage i = none) : UplinkOk (cutAll n .flushed s) := by
    have cut := uplinkOk_cutAll (n := n) (i := i) h .flushed hopen
    rwa [← hi, show s.ports.ingress[n] = (cutAll n .flushed s).ports.ingress[n] by simp, setIngress_self] at cut
  unfold flushUplink
  dsimp only
  split
  · exact uplinkOk_cutAll h _ rfl
  · next hidle => exact unopened hidle rfl
  · next hdiscarding => exact unopened hdiscarding rfl

theorem uplinkOk_restartBlocks (seq : Byte) (s : State) : UplinkOk (restartBlocks seq s) := by
  intro n
  have hidle : (restartBlocks seq s).ports.ingress[n] = .idle := by simp [restartBlocks]
  rw [hidle, show (restartBlocks seq s).store.up[n] = .empty from (restarted_queues n).1]
  exact QueueWhole.empty rfl

/-! ## Every step -/

theorem queueLaw_uplinkOk : QueueLaw UplinkOk where
  reads h hq := by
    simp only [queuesOf, Prod.mk.injEq] at hq
    exact uplinkOk_congr h (by rw [hq.1]) hq.2.2
  offered n c s h := by
    refine uplinkOk_congr h ?_ (by simp)
    by_cases hj : judgeDown n s = .admitted
    · rw [offerDown_store_of_admitted hj]
    · rw [offerDown_store_of_refused hj]
  takenUp := uplinkOk_takeUp
  takenDown ht h := by
    obtain ⟨rest, -, rfl⟩ := takeDown_eq_some ht
    exact uplinkOk_congr h rfl rfl
  arrived _ _ _ h := uplinkOk_tribArrival h
  ended _ _ h := uplinkOk_endIngress h
  flushedUp _ _ h := uplinkOk_flushUplink h
  flushedDown _ _ h := uplinkOk_congr h rfl rfl
  disabled _ _ h := uplinkOk_cutAll h _ rfl
  configured _ _ h := uplinkOk_congr h rfl rfl
  restarted seq s _ := uplinkOk_restartBlocks seq s
  reset := uplinkOk_afterHardReset

/-- Settles O5: the law of uplink messages is a law of the queues. -/
theorem stepKeepsUplinkMessagesWhole : Obligations.StepKeepsUplinkMessagesWhole := by
  unfold Obligations.StepKeepsUplinkMessagesWhole
  intro s t h ht
  exact queueLaw_uplinkOk.every_step_keeps h ht

end Sys2Proof.Proofs.CellStore
end

section
/-! PROOFS. The judgement of an offer and what follows it at the store, the counters and the notice list (R20, R21), and what each cell from
a tributary makes of the ingress record and the uplink queue (R39 to R47). -/

namespace Sys2Proof.Proofs.CellStore

open Sys2Proof.Machine Sys2Proof.Laws Sys2Proof.Claims Sys2Proof.Proofs.CellLink

/-! ## The judgement of an offer -/

theorem judgeUp_of_room {n : Trib} {s : State} (h : RoomUp n s) : judgeUp n s = .admitted := judgeOffer_admitted.mpr h

theorem judgeDown_of_room {n : Trib} {s : State} (h : RoomDown n s) : judgeDown n s = .admitted := judgeOffer_admitted.mpr h

theorem judgeUp_of_refuses {n : Trib} {full : Bool} {s : State} (h : RefusesUp n full s) :
    judgeUp n s = if full then .queueFull else .noBuffer := by
  cases full with
  | true => exact judgeOffer_queueFull.mpr h
  | false => exact judgeOffer_noBuffer.mpr h

theorem judgeDown_of_refuses {n : Trib} {full : Bool} {s : State} (h : RefusesDown n full s) :
    judgeDown n s = if full then .queueFull else .noBuffer := by
  cases full with
  | true => exact judgeOffer_queueFull.mpr h
  | false => exact judgeOffer_noBuffer.mpr h

theorem judgeUp_ne_of_refuses {n : Trib} {full : Bool} {s : State} (h : RefusesUp n full s) : judgeUp n s ≠ .admitted := by
  rw [judgeUp_of_refuses h]
  cases full <;> decide

/-- A cell pushed, in the words of its position (R25). -/
theorem push_eq (q : UpQueue) (c : Cell) :
    q.push c =
      { q with
        cells := q.cells ++ [c]
        complete := q.complete + (if c.position = .last ∨ c.position = .sole then 1 else 0) } := by
  simp only [UpQueue.push, isEnd_iff]

theorem offerUp_of_room {n : Trib} {s : State} (h : RoomUp n s) (c : Cell) : offerUp n c s = joinedUp n c s := by
  simp only [offerUp, judgeUp_of_room h, push_eq]
  rfl

theorem offerUp_of_refuses {n : Trib} {full : Bool} {s : State} (h : RefusesUp n full s) (c : Cell) :
    offerUp n c s = refusedUp n full s := by
  unfold offerUp
  rw [judgeUp_of_refuses h]
  cases full <;> rfl

theorem offerDown_of_room {n : Trib} {s : State} (h : RoomDown n s) (c : Cell) : offerDown n c s = joinedDown n c s := by
  simp only [offerDown, judgeDown_of_room h]
  rfl

theorem offerDown_of_refuses {n : Trib} {full : Bool} {s : State} (h : RefusesDown n full s) (c : Cell) :
    offerDown n c s = refusedDown n full s := by
  unfold offerDown
  rw [judgeDown_of_refuses h]
  cases full <;> rfl

/-- Settles O22: each verdict's outcome, for both directions. -/
theorem offerIsJudgedAndCounted : Obligations.OfferIsJudgedAndCounted := by
  unfold Obligations.OfferIsJudgedAndCounted
  intro n c s
  refine ⟨fun hceiling hroom => ?_, fun hceiling hroom => ?_, fun hfull => ?_, fun hceiling hfloor hfree => ?_, fun hfull => ?_,
    fun hceiling hfloor hfree => ?_⟩
  · exact offerUp_of_room ⟨hceiling, hroom⟩ c
  · exact offerDown_of_room ⟨hceiling, hroom⟩ c
  · exact offerUp_of_refuses (full := true) hfull c
  · exact offerUp_of_refuses (full := false) ⟨hceiling, hfloor, hfree⟩ c
  · exact offerDown_of_refuses (full := true) hfull c
  · exact offerDown_of_refuses (full := false) ⟨hceiling, hfloor, hfree⟩ c

/-! ## Statements about an arrival read past the links -/

/-- States that part in the links alone, as before and after a header test has moved its receiver (R10). -/
structure LinksApart (s v : State) : Prop where
  store : v.store = s.store
  ports : v.ports = s.ports
  plans : v.plans = s.plans
  scheduler : v.scheduler = s.scheduler
  notices : v.notices = s.notices
  bank : v.bank = s.bank

theorem linksApart_setReceiver (l : Link) (r : Receiver) (s : State) : LinksApart s (setReceiver l r s) := by
  constructor <;> simp

namespace LinksApart

variable {s v : State} (h : LinksApart s v)
include h

theorem reserve : v.reserve = s.reserve := by
  simp only [State.reserve, h.ports, h.store]

theorem counted {b b' : CounterBank} (hb : b' = b) : LinksApart { s with bank := b } { v with bank := b' } :=
  ⟨h.store, h.ports, h.plans, h.scheduler, h.notices, hb⟩

theorem posted (kind : NoticeKind) (subject detail : Byte) : LinksApart (post kind subject detail s) (post kind subject detail v) where
  store := by simpa using h.store
  ports := by simpa using h.ports
  plans := by simpa using h.plans
  scheduler := by simpa using h.scheduler
  notices := post_notices_congr h.notices
  bank := post_bank_congr h.notices h.bank

theorem refusedUp (n : Trib) (full : Bool) : LinksApart (refusedUp n full s) (refusedUp n full v) := by
  cases full with
  | true => exact (h.counted (by rw [h.bank])).posted .uplinkDrops _ 1
  | false => exact (h.counted (by rw [h.bank])).posted .uplinkDrops _ 2

theorem sameTraffic {t : State} : SameTraffic v t ↔ SameTraffic s t := by
  simp only [SameTraffic, h.store, h.notices, h.bank]

theorem joinedUp (n : Trib) (c : Cell) : LinksApart (joinedUp n c s) (joinedUp n c v) where
  store := by simp only [Claims.joinedUp, h.store]
  ports := h.ports
  plans := h.plans
  scheduler := h.scheduler
  notices := h.notices
  bank := by simp only [Claims.joinedUp, h.bank]

theorem malformedCounted (n : Trib) : LinksApart (malformedCounted n s) (malformedCounted n v) where
  store := h.store
  ports := h.ports
  plans := h.plans
  scheduler := h.scheduler
  notices := h.notices
  bank := by simp only [Claims.malformedCounted, h.bank]

theorem roomUp (n : Trib) : RoomUp n v ↔ RoomUp n s := by
  simp only [RoomUp, h.store, h.ports, h.reserve]

theorem refusesUp (n : Trib) (full : Bool) : RefusesUp n full v ↔ RefusesUp n full s := by
  simp only [RefusesUp, h.store, h.ports, h.reserve]

theorem startsUplink {n : Trib} {c : Cell} {tag : Tag} {limit : Nat} {t : State} :
    StartsUplink n c tag limit v t ↔ StartsUplink n c tag limit s t := by
  simp only [StartsUplink, h.roomUp, h.refusesUp, (h.joinedUp n _).sameTraffic, (h.refusedUp n _).sameTraffic, h.ports, h.scheduler]

theorem cutOnArrival {n : Trib} {cause : Byte} {t : State} : CutOnArrival n cause v t ↔ CutOnArrival n cause s t := by
  simp only [CutOnArrival, OpenMessageCut, h.store, h.scheduler, h.bank, post_notices_congr h.notices,
    post_management_congr h.notices (congrArg CounterBank.management h.bank)]

theorem cutAtCell {n : Trib} {c : Cell} {cause : Byte} {t : State} : CutAtCell n c cause v t ↔ CutAtCell n c cause s t := by
  simp only [CutAtCell, h.cutOnArrival, h.ports]

end LinksApart

/-! ## The operations of an arrival -/

theorem cutOnArrival_cutOpen (n : Trib) (cause : CutCause) (s : State) : CutOnArrival n cause.detail s (cutOpen n cause s) := by
  obtain ⟨-, hdown, htrunk⟩ := cutOpen_bank n cause s
  obtain ⟨hnotices, hmanagement⟩ := cutOpen_posts n cause s
  refine ⟨openMessageCut_of_cutOpen (cause := cause) rfl rfl rfl rfl, ?_, hdown, htrunk, hnotices, hmanagement⟩
  rw [cutOpen_store]

/-- A cut says nothing of the ingress record, which is written after it. -/
theorem cutOnArrival_setIngress {n : Trib} {cause : Byte} {s t : State} (h : CutOnArrival n cause s t) (i : Ingress) :
    CutOnArrival n cause s (setIngress n i t) := h

theorem cutAtCell_giveUpAt (n : Trib) (cause : CutCause) (c : Cell) (s : State) :
    CutAtCell n c cause.detail s (giveUpAt n cause c s) := by
  refine ⟨cutOnArrival_setIngress (cutOnArrival_cutOpen n cause s) _, ?_⟩
  simp only [giveUpAt, setIngress_ports, cutOpen_leaves]
  rfl

theorem startMessage_ports_of_room {n : Trib} {c : Cell} {s : State} (h : RoomUp n s) :
    (startMessage n c s).ports =
      { s.ports with
        ingress := s.ports.ingress.set n
          (if c.position = .first then .opened (latchTag n c s) (c.tag.setWidth 6) s.plans.running.entries[n].limit 1 1 else .idle) } := by
  simp only [startMessage, judgeUp_of_room h, if_true, setIngress_ports, offerUp_leaves]

theorem startMessage_ports_of_refuses {n : Trib} {full : Bool} {c : Cell} {s : State} (h : RefusesUp n full s) :
    (startMessage n c s).ports =
      { s.ports with ingress := s.ports.ingress.set n (if c.position = .first then .discarding else .idle) } := by
  simp only [startMessage, judgeUp_ne_of_refuses h, if_false, setIngress_ports, offerUp_leaves]

/-- The start of a message is the offer to the store and a move of the ingress record. -/
theorem sameTraffic_startMessage (n : Trib) (c : Cell) (s : State) :
    SameTraffic (offerUp n { c with tag := latchTag n c s } s) (startMessage n c s) := ⟨rfl, rfl, rfl⟩

theorem startsUplink_startMessage (n : Trib) (c : Cell) (s : State) :
    StartsUplink n c (latchTag n c s) s.plans.running.entries[n].limit s (startMessage n c s) := by
  refine ⟨fun h => ⟨?_, startMessage_ports_of_room h⟩, fun full h => ⟨?_, startMessage_ports_of_refuses h⟩, by simp⟩
  · rw [← offerUp_of_room h]
    exact sameTraffic_startMessage n c s
  · rw [← offerUp_of_refuses h { c with tag := latchTag n c s }]
    exact sameTraffic_startMessage n c s

/-! ## An arrival by the state of its port -/

section Arrival

variable {n : Trib} {c : Cell} {s : State}

theorem tribArrival_of_disabled (h : s.ports.table[n].enable = false) (c : Cell) :
    tribArrival n c s = countUp n .bumpWhileDisabled s := by
  simp only [tribArrival, h, Bool.not_false, if_true]

theorem tribArrival_of_malformed (he : s.ports.table[n].enable = true) (hw : c.wellFormedTributary = false) :
    tribArrival n c s = malformedUp n s := by
  simp only [tribArrival, he, hw, Bool.not_true, Bool.not_false, Bool.false_eq_true, if_false, if_true]

theorem tribArrival_of_idle (he : s.ports.table[n].enable = true) (hw : c.wellFormedTributary = true)
    (hi : s.ports.ingress[n] = .idle) : tribArrival n c s = ingressIdle n c s := by
  simp only [tribArrival, he, hw, hi, Bool.not_true, Bool.false_eq_true, if_false]

theorem tribArrival_of_discarding (he : s.ports.table[n].enable = true) (hw : c.wellFormedTributary = true)
    (hi : s.ports.ingress[n] = .discarding) : tribArrival n c s = ingressDiscarding n c s := by
  simp only [tribArrival, he, hw, hi, Bool.not_true, Bool.false_eq_true, if_false]

theorem tribArrival_of_opened {tag : Tag} {channel : Channel} {limit admitted : Nat} {next : Index}
    (he : s.ports.table[n].enable = true) (hw : c.wellFormedTributary = true)
    (hi : s.ports.ingress[n] = .opened tag channel limit admitted next) :
    tribArrival n c s = ingressOpen n tag channel limit admitted next c s := by
  simp only [tribArrival, he, hw, hi, Bool.not_true, Bool.false_eq_true, if_false]

/-- A FIRST or SOLE with no message open is judged as the part stands (R40, R41, R46). -/
theorem tribArrival_starts (he : s.ports.table[n].enable = true) (hw : c.wellFormedTributary = true)
    (hp : c.position = .first ∨ c.position = .sole) (hi : s.ports.ingress[n] = .idle ∨ s.ports.ingress[n] = .discarding) :
    tribArrival n c s = startMessage n c s := by
  obtain hi | hi := hi
  · rw [tribArrival_of_idle he hw hi]
    obtain hp | hp := hp <;> simp only [ingressIdle, hp]
  · rw [tribArrival_of_discarding he hw hi]
    obtain hp | hp := hp <;> simp only [ingressDiscarding, hp]

/-- A FIRST or SOLE in OPEN is judged over what the cut of the open message leaves (R42). -/
theorem tribArrival_restarts {tag : Tag} {channel : Channel} {limit admitted : Nat} {next : Index}
    (he : s.ports.table[n].enable = true) (hw : c.wellFormedTributary = true) (hp : c.position = .first ∨ c.position = .sole)
    (hi : s.ports.ingress[n] = .opened tag channel limit admitted next) :
    tribArrival n c s = startMessage n c (cutOpen n .firstWhileOpen s) := by
  rw [tribArrival_of_opened he hw hi]
  obtain hp | hp := hp <;> simp only [ingressOpen, hp]

/-- A MIDDLE or LAST in OPEN goes on with the open message (R43 to R45). -/
theorem tribArrival_continues {tag : Tag} {channel : Channel} {limit admitted : Nat} {next : Index}
    (he : s.ports.table[n].enable = true) (hw : c.wellFormedTributary = true) (hp : c.position = .middle ∨ c.position = .last)
    (hi : s.ports.ingress[n] = .opened tag channel limit admitted next) :
    tribArrival n c s = continueMessage n tag channel limit admitted next c s := by
  rw [tribArrival_of_opened he hw hi]
  obtain hp | hp := hp <;> simp only [ingressOpen, hp]

/-- A LOCKED header test of a tributary that finds a valid header on a cell that is not idle: the receiver moves on and the port takes the
cell (R10, R12). -/
theorem exec_locked_tributary {bytes : List Byte} {turn : Turn} (h : Tests (.tributary n) .locked bytes 36 s)
    (hv : headerValid bytes = true) (hidle : (decodeCell bytes).tag ≠ idleTag) :
    ∃ v, LinksApart s v ∧ v.links = headerPassed (.tributary n) s ∧ v.channels = s.channels ∧ v.engine = s.engine
      ∧ v.survey = s.survey ∧ v.pins = s.pins
      ∧ exec (.lockedHeaderTest (.tributary n) bytes [] turn) s = .next (tribArrival n (decodeCell bytes) v) := by
  refine ⟨_, linksApart_setReceiver (.tributary n) _ s, rfl, rfl, rfl, rfl, rfl, ?_⟩
  rw [exec_locked_of_tests h, if_pos hv, handOn, if_neg hidle]
  rfl

end Arrival

/-- No cell well-formed on a tributary link is idle (R6, R7). -/
theorem tag_ne_idle_of_wellFormed {c : Cell} (h : c.wellFormedTributary = true) : c.tag ≠ idleTag := by
  intro htag
  simp only [Cell.wellFormedTributary, htag, Bool.and_eq_true, decide_eq_true_eq] at h
  exact absurd h.2 (by decide)

/-- Settles O24: with no message open the cell starts over the part as it stands, and in OPEN over what the cut leaves. -/
theorem firstOrSoleOfUplinkIsJudged : Obligations.FirstOrSoleOfUplinkIsJudged := by
  unfold Obligations.FirstOrSoleOfUplinkIsJudged
  rintro n bytes turn s c tag limit htests hvalid rfl hp hw he rfl rfl
  obtain ⟨v, hv, hlinks, hchannels, hengine, hsurvey, hpins, hexec⟩ :=
    exec_locked_tributary (turn := turn) htests hvalid (tag_ne_idle_of_wellFormed hw)
  have hev : v.ports.table[n].enable = true := by rwa [hv.ports]
  refine ⟨_, hexec, by simpa using hlinks, fun hi => ?_, fun oldTag channel oldLimit admitted next hi => ?_, by simpa using hv.plans,
    by simpa using hchannels, by simpa using hengine, by simpa using hsurvey, by simpa using hpins⟩
  · rw [← hv.ports] at hi
    rw [tribArrival_starts hev hw hp hi]
    have starts := startsUplink_startMessage n (decodeCell bytes) v
    rw [latchTag, hv.plans] at starts
    exact hv.startsUplink.mp starts
  · rw [← hv.ports] at hi
    rw [tribArrival_restarts hev hw hp hi]
    have starts := startsUplink_startMessage n (decodeCell bytes) (cutOpen n .firstWhileOpen v)
    rw [latchTag, show (cutOpen n .firstWhileOpen v).plans = s.plans by simp [hv.plans]] at starts
    exact ⟨_, hv.cutOnArrival.mp (cutOnArrival_cutOpen n .firstWhileOpen v), by simp [hv.ports], starts⟩

/-! ## Every other cell from a tributary -/

theorem countUp_malformed (n : Trib) (s : State) : countUp n .bumpMalformed s = malformedCounted n s := rfl

theorem malformedUp_of_unopened {n : Trib} {s : State} (hi : s.ports.ingress[n] = .idle ∨ s.ports.ingress[n] = .discarding) :
    malformedUp n s = malformedCounted n s := by
  obtain hi | hi := hi <;> simp only [malformedUp, hi, countUp_malformed]

theorem malformedUp_of_opened {n : Trib} {s : State} {tag : Tag} {channel : Channel} {limit admitted : Nat} {next : Index}
    (hi : s.ports.ingress[n] = .opened tag channel limit admitted next) :
    malformedUp n s = setIngress n .discarding (cutOpen n .malformed (malformedCounted n s)) := by
  simp only [malformedUp, hi, countUp_malformed]

section Continuation

variable {n : Trib} {c : Cell} {s : State}

/-- A MIDDLE or LAST with no message in progress is dropped and counted malformed (R41). -/
theorem ingressIdle_of_continuation (hp : c.position = .middle ∨ c.position = .last) : ingressIdle n c s = malformedCounted n s := by
  obtain hp | hp := hp <;> simp only [ingressIdle, hp, countUp_malformed]

/-- A MIDDLE or LAST of a given-up message is dropped, and a LAST ends it (R46). -/
theorem ingressDiscarding_of_continuation (hp : c.position = .middle ∨ c.position = .last) (hi : s.ports.ingress[n] = .discarding) :
    ingressDiscarding n c s = setIngress n (if c.position = .last then .idle else .discarding) s := by
  obtain hp | hp := hp
  · simp only [ingressDiscarding, hp, reduceCtorEq, if_false]
    rw [← hi, setIngress_self]
  · simp only [ingressDiscarding, hp, if_true]

variable {tag : Tag} {channel : Channel} {limit admitted : Nat} {next : Index}

theorem continueMessage_of_gap (h : c.tag.setWidth 6 ≠ channel ∨ c.index ≠ next) :
    continueMessage n tag channel limit admitted next c s = giveUpAt n .indexGap c s := if_pos h

theorem continueMessage_of_overLength (hc : c.tag.setWidth 6 = channel) (hn : c.index = next) (h : limit < admitted + 1) :
    continueMessage n tag channel limit admitted next c s = giveUpAt n .overLength c s := by
  rw [continueMessage, if_neg (by simp [hc, hn]), if_pos h]

theorem continueMessage_of_room (hc : c.tag.setWidth 6 = channel) (hn : c.index = next) (h : admitted + 1 ≤ limit) (hr : RoomUp n s) :
    continueMessage n tag channel limit admitted next c s =
      setIngress n (if c.position = .last then .idle else .opened tag channel limit (admitted + 1) (c.index + 1))
        (joinedUp n { c with tag := tag } s) := by
  rw [continueMessage, if_neg (by simp [hc, hn]), if_neg (Nat.not_lt.mpr h), if_pos (judgeUp_of_room hr), offerUp_of_room hr]

theorem continueMessage_of_refuses {full : Bool} (hc : c.tag.setWidth 6 = channel) (hn : c.index = next) (h : admitted + 1 ≤ limit)
    (hr : RefusesUp n full s) :
    continueMessage n tag channel limit admitted next c s = giveUpAt n .noBuffer c (refusedUp n full s) := by
  rw [continueMessage, if_neg (by simp [hc, hn]), if_neg (Nat.not_lt.mpr h), if_neg (judgeUp_ne_of_refuses hr), offerUp_of_refuses hr]

end Continuation

/-- Settles O25: each case is one of the arrival's own branches, read past the move of the receiver. -/
theorem otherTributaryCellsAreJudged : Obligations.OtherTributaryCellsAreJudged := by
  unfold Obligations.OtherTributaryCellsAreJudged
  rintro n bytes turn s c htests hvalid rfl hidle hother
  obtain ⟨v, hv, hlinks, hchannels, hengine, hsurvey, hpins, hexec⟩ := exec_locked_tributary (turn := turn) htests hvalid hidle
  have htable : v.ports.table[n] = s.ports.table[n] := by rw [hv.ports]
  have hingress : v.ports.ingress[n] = s.ports.ingress[n] := by rw [hv.ports]
  refine ⟨_, hexec, by simpa using hlinks, fun he => ?_, fun he hw => ⟨fun hi => ?_, fun tag channel limit admitted next hi => ?_⟩,
    fun he hw => ?_, by simpa using hv.plans, by simpa using hchannels, by simpa using hengine, by simpa using hsurvey,
    by simpa using hpins⟩
  · rw [← htable] at he
    rw [tribArrival_of_disabled he]
    exact ⟨⟨hv.store, hv.notices, by rw [countUp_bank, hv.bank]; rfl⟩, hv.ports, hv.scheduler⟩
  · rw [← htable] at he
    rw [← hingress] at hi
    rw [tribArrival_of_malformed he hw, malformedUp_of_unopened hi]
    exact ⟨(hv.malformedCounted n).sameTraffic.mp ⟨rfl, rfl, rfl⟩, hv.ports, hv.scheduler⟩
  · rw [← htable] at he
    rw [← hingress] at hi
    rw [tribArrival_of_malformed he hw, malformedUp_of_opened hi]
    refine ⟨cutOnArrival_setIngress ((hv.malformedCounted n).cutOnArrival.mp (cutOnArrival_cutOpen n .malformed _)) _, ?_⟩
    rw [setIngress_ports, ← hv.ports]
    simp [malformedCounted]
  · have hp : (decodeCell bytes).position = .middle ∨ (decodeCell bytes).position = .last := by
      obtain hd | hm | hp := hother
      · exact absurd (he.symm.trans hd) (by simp)
      · exact absurd (hw.symm.trans hm) (by simp)
      · exact hp
    rw [← htable] at he
    refine ⟨fun hi => ?_, fun hi => ?_, fun tag channel limit admitted next hi => ?_⟩
    · rw [← hingress] at hi
      rw [tribArrival_of_idle he hw hi, ingressIdle_of_continuation hp]
      exact ⟨(hv.malformedCounted n).sameTraffic.mp ⟨rfl, rfl, rfl⟩, hv.ports, hv.scheduler⟩
    · rw [← hingress] at hi
      rw [tribArrival_of_discarding he hw hi, ingressDiscarding_of_continuation hp hi]
      exact ⟨⟨hv.store, hv.notices, hv.bank⟩, hv.scheduler, by rw [setIngress_ports, hv.ports]⟩
    · rw [← hingress] at hi
      rw [tribArrival_continues he hw hp hi]
      refine ⟨fun hgap => ?_, fun hc hn => ⟨fun hlong => ?_, fun hlimit => ⟨fun hroom => ?_, fun full hrefuses => ?_⟩⟩⟩
      · rw [continueMessage_of_gap hgap]
        exact hv.cutAtCell.mp (cutAtCell_giveUpAt n .indexGap _ v)
      · rw [continueMessage_of_overLength hc hn hlong]
        exact hv.cutAtCell.mp (cutAtCell_giveUpAt n .overLength _ v)
      · rw [continueMessage_of_room hc hn hlimit ((hv.roomUp n).mpr hroom)]
        refine ⟨(hv.joinedUp n _).sameTraffic.mp ⟨rfl, rfl, rfl⟩, ?_, hv.scheduler⟩
        rw [setIngress_ports, ← hv.ports]
        rfl
      · rw [continueMessage_of_refuses hc hn hlimit ((hv.refusesUp n full).mpr hrefuses)]
        exact (hv.refusedUp n full).cutAtCell.mp (cutAtCell_giveUpAt n .noBuffer _ _)

end Sys2Proof.Proofs.CellStore
end

section
/-! PROOFS. The sends that take from the cell store: a tributary's cell time and its own slot (R23 to R26, R48, R84, R97). -/

namespace Sys2Proof.Proofs.CellStore

open Sys2Proof.Machine Sys2Proof.Laws Sys2Proof.Claims Sys2Proof.Proofs.CellLink

/-! ## Cell times -/

theorem isUp_iff {p : Ports} {n : Trib} : p.isUp n = true ↔ p.state n = .up := by
  simp [Ports.isUp]

theorem takeUp_of_cells {n : Trib} {c : Cell} {rest : List Cell} {s : State} (h : s.store.up[n].cells = c :: rest) :
    takeUp n s = some (c, freeBuffers 1 (setUp n (s.store.up[n].afterTake c rest) s)) := by
  rw [takeUp, h]

theorem takeDown_of_cells {n : Trib} {c : Cell} {rest : List Cell} {s : State} (h : s.store.down[n] = c :: rest) :
    takeDown n s = some (c, countDown n .bumpSent (freeBuffers 1 (setDown n rest s))) := by
  rw [takeDown, h]

theorem takeDown_of_empty {n : Trib} {s : State} (h : s.store.down[n] = []) : takeDown n s = none := by
  rw [takeDown, h]

theorem cellTimeEvent_of_sent {n : Trib} {c : Cell} {rest : List Cell} {s : State} (hup : s.ports.state n = .up)
    (h : s.store.down[n] = c :: rest) :
    cellTimeEvent n s = setTribTx n c (countDown n .bumpSent (freeBuffers 1 (setDown n rest s))) := by
  rw [cellTimeEvent, if_pos (isUp_iff.mpr hup), takeDown_of_cells h]

theorem cellTimeEvent_of_idle {n : Trib} {s : State} (h : s.ports.state n ≠ .up ∨ s.store.down[n] = []) :
    cellTimeEvent n s = setTribTx n idleCell s := by
  unfold cellTimeEvent
  split
  · next hup =>
    have hempty : s.store.down[n] = [] := h.resolve_left fun hnot => hnot (isUp_iff.mp hup)
    rw [takeDown_of_empty hempty]
  · rfl

/-- Settles O35: a cell time is the take of Dn, or the idle cell. -/
theorem cellTimeServesDownlink : Obligations.CellTimeServesDownlink := by
  unfold Obligations.CellTimeServesDownlink
  intro n s hrun
  have hexec : exec (.tributaryCellTime n) s = .next (cellTimeEvent n s) :=
    congrArg Host.Outcome.next (whileRunning_of_running hrun _)
  rw [hexec]
  constructor
  · intro c rest hup hcells
    rw [cellTimeEvent_of_sent hup hcells]
    rfl
  · intro h
    rw [cellTimeEvent_of_idle h]
    rfl

/-! ## Slots -/

theorem exec_slot_of_comes {o : Owner} {s : State} (h : SlotComes o s) :
    exec .slot s = .next (carrySlot s.plans.running.length (decideSlot o s)) := by
  obtain ⟨hrun, hdue, howner⟩ := h
  have hexec : exec .slot s = .next (slotEvent s) := congrArg Host.Outcome.next (whileRunning_of_running hrun _)
  rw [hexec, slotEvent_of_none hdue, howner]

/-- A slot carried carries its cell and is reported by its kind, when its decision has left the blocks that no slot touches, and of the
scheduler all but its two lists (R83, R103, R172). -/
theorem slotCarries_carrySlot {d : Decision} {s : State} (hdue : s.scheduler.due = .none) {borrow : List Trib}
    {abandon : List AbandonEntry} (hscheduler : d.state.scheduler = { s.scheduler with borrow := borrow, abandon := abandon })
    (hlinks : d.state.links = s.links) (hsurvey : d.state.survey = s.survey) (hpending : d.state.pending = s.pending)
    (hpins : d.state.pins = s.pins) (hports : d.state.ports = s.ports) (hplans : d.state.plans = s.plans)
    (hchannels : d.state.channels = s.channels) :
    SlotCarries d.cell d.kind s (carrySlot s.plans.running.length d) := by
  have htaken : d.state.scheduler.due.survey = false := by
    rw [hscheduler]
    dsimp only
    rw [hdue]
    rfl
  rw [carrySlot_of_taken htaken, hscheduler, hlinks, hsurvey]
  refine ⟨rfl, ?_, ?_, ?_, hpending, hpins, hports, hplans, hchannels⟩
  · unfold SlotCounted
    dsimp only
    split <;> exact ⟨rfl, rfl⟩
  · dsimp only
    split <;> rfl
  · cases d.kind <;> rfl

/-- What a slot carried leaves of its decision besides: the store, the engine, the notice list, the counters, and the scheduler's lists. -/
theorem carrySlot_rest {d : Decision} (hdue : d.state.scheduler.due.survey = false) (length : Nat) :
    (carrySlot length d).store = d.state.store ∧ (carrySlot length d).engine = d.state.engine
      ∧ (carrySlot length d).notices = d.state.notices ∧ (carrySlot length d).bank = d.state.bank
      ∧ (carrySlot length d).scheduler.borrow = d.state.scheduler.borrow
      ∧ (carrySlot length d).scheduler.abandon = d.state.scheduler.abandon := by
  rw [carrySlot_of_taken hdue]
  refine ⟨rfl, rfl, rfl, rfl, ?_, ?_⟩
  · dsimp only
    split <;> rfl
  · dsimp only
    split <;> rfl

/-- The head cell of Un taken in a slot, and Tn off the borrow stack if the cell ends its message: what is decided, whichever slot it is
(R23, R97). -/
def sentUp (n : Trib) (c : Cell) (rest : List Cell) (s : State) : State :=
  afterSend n c (freeBuffers 1 (setUp n (s.store.up[n].afterTake c rest) s))

theorem afterSend_eq (n : Trib) (c : Cell) (s : State) :
    afterSend n c s =
      { s with
        scheduler :=
          { s.scheduler with
            borrow := if c.position = .last ∨ c.position = .sole then s.scheduler.borrow.filter fun m => m != n
              else s.scheduler.borrow } } := by
  simp only [afterSend, isEnd_iff]
  split <;> rfl

theorem sentUp_scheduler (n : Trib) (c : Cell) (rest : List Cell) (s : State) :
    (sentUp n c rest s).scheduler =
      { s.scheduler with
        borrow := if c.position = .last ∨ c.position = .sole then s.scheduler.borrow.filter fun m => m != n
          else s.scheduler.borrow } := by
  unfold sentUp
  rw [afterSend_eq]
  rfl

theorem sentUp_leaves (n : Trib) (c : Cell) (rest : List Cell) (s : State) :
    (sentUp n c rest s).pending = s.pending ∧ (sentUp n c rest s).pins = s.pins ∧ (sentUp n c rest s).links = s.links
      ∧ (sentUp n c rest s).ports = s.ports ∧ (sentUp n c rest s).plans = s.plans ∧ (sentUp n c rest s).channels = s.channels
      ∧ (sentUp n c rest s).engine = s.engine ∧ (sentUp n c rest s).notices = s.notices ∧ (sentUp n c rest s).bank = s.bank
      ∧ (sentUp n c rest s).survey = s.survey := by
  unfold sentUp
  rw [afterSend_eq]
  exact ⟨rfl, rfl, rfl, rfl, rfl, rfl, rfl, rfl, rfl, rfl⟩

/-- The bookkeeping of a take in the words of the cell's position (R25, R26). -/
theorem takenForTrunk_sentUp (n : Trib) (c : Cell) (rest : List Cell) (s : State) : TakenForTrunk n c rest s (sentUp n c rest s) := by
  unfold TakenForTrunk sentUp
  rw [afterSend_eq, freeBuffers_store, setUp_store]
  unfold UpQueue.afterTake headAfter
  cases hp : c.position <;> simp [Cell.isEnd, hp]

/-- The decision of an own slot with no abandon cell owed and a cell queued (R84). -/
theorem decideOwn_of_cells {n : Trib} {c : Cell} {rest : List Cell} {s : State} (howed : ∀ e ∈ s.scheduler.abandon, e.trib ≠ n)
    (h : s.store.up[n].cells = c :: rest) : decideOwn n s = { kind := .own n, cell := c, state := sentUp n c rest s } := by
  have hfind : (s.scheduler.abandon.find? fun e => e.trib == n) = none :=
    List.find?_eq_none.mpr fun e he => by simpa using howed e he
  rw [decideOwn, hfind]
  dsimp only
  rw [takeUp_of_cells h]
  rfl

/-- Settles O30: an own slot with no abandon cell owed carries the take of Un. -/
theorem ownSlotSendsHeadCell : Obligations.OwnSlotSendsHeadCell := by
  unfold Obligations.OwnSlotSendsHeadCell
  intro n c rest s hcomes howed hcells
  have hexec := exec_slot_of_comes hcomes
  obtain ⟨-, hdue, -⟩ := hcomes
  rw [decideSlot, decideOwn_of_cells howed hcells] at hexec
  let d : Decision := { kind := .own n, cell := c, state := sentUp n c rest s }
  have hscheduler := sentUp_scheduler n c rest s
  obtain ⟨hpending, hpins, hlinks, hports, hplans, hchannels, hengine, hnotices, hbank, hsurvey⟩ := sentUp_leaves n c rest s
  have htaken : d.state.scheduler.due.survey = false := by
    rw [hscheduler]
    dsimp only
    rw [hdue]
    rfl
  obtain ⟨hstore', hengine', hnotices', hbank', hborrow', habandon'⟩ := carrySlot_rest htaken s.plans.running.length
  refine ⟨_, hexec, ?_, hstore'.trans (takenForTrunk_sentUp n c rest s), habandon'.trans (by rw [hscheduler]),
    hborrow'.trans (by rw [hscheduler]), hengine'.trans hengine, hnotices'.trans hnotices, hbank'.trans hbank⟩
  exact slotCarries_carrySlot (d := d) hdue hscheduler hlinks hsurvey hpending hpins hports hplans hchannels

end Sys2Proof.Proofs.CellStore
end

section
/-! PROOFS. The execution of a command that is ready and its answer (R133, R134), and RESTART (R143, R144). -/

namespace Sys2Proof.Proofs.CellStore

open Sys2Proof.Machine Sys2Proof.Laws Sys2Proof.Claims Sys2Proof.Proofs.CellLink

/-! ## A command that is ready -/

section Ready

variable {i : Instr} {k : CommandKind} {work : TakenCommand → State → State} {c : TakenCommand} {rest : List TakenCommand} {s : State}

/-- A command that is ready does its own work on the part with its execution begun (R133). -/
theorem exec_of_ready (h : Ready k c rest s) (hi : exec i s = .next (whileRunning s (runCommand k work))) :
    exec i s = .next (work c (beginCommand rest s)) := by
  obtain ⟨hrun, hidle, hroom, hqueue, hkind, hlength⟩ := h
  rw [hi, whileRunning_of_running hrun, runCommand_of_ready (startable_eq_some.mpr ⟨hidle, hroom, hqueue⟩) hkind hlength]

/-- A completion after work that leaves the engine as the execution began (R134). -/
theorem completed_complete {result : Result} {data : List Byte} {v : State} (hv : v.engine = (beginCommand rest s).engine) :
    Completed c rest result data s.engine (complete c result data v).engine := by
  refine ⟨?_, ?_, ?_, ?_, ?_⟩ <;> simp [hv]

/-- A step that completes its command over a state that parts from a given one in the engine alone answers the command and leaves the part
as given. -/
theorem answers_complete {result : Result} {data : List Byte} {u v : State} (hi : exec i s = .next (complete c result data v))
    (hv : v = { u with engine := (beginCommand rest s).engine }) : Answers i c rest result data s u := by
  subst hv
  exact ⟨_, hi, completed_complete rfl⟩

end Ready

/-! ## RESTART -/

/-- An empty list holds no number that would be passed over (R149). -/
theorem freshNumber_nil (fuel : Nat) {b : Byte} (h : b ≠ 0) : freshNumber [] (fuel + 1) b = b :=
  if_neg fun hused => hused.elim h (by simp)

theorem restarted_notices {l : NoticeList} (h : l.counter ≠ 0) :
    l.restarted =
      { l with
        records := [{ number := l.counter, kind := .restarted, subject := 0, count := 1, detail := 3, state := .waiting }]
        counter := nextNumber l.counter } := by
  have hnumber : freshNumber [] 255 l.counter = l.counter := freshNumber_nil 254 h
  simp only [NoticeList.restarted, NoticeList.create, hnumber]
  rfl

/-- A trial has ended, and a switch state without one is kept (R79). -/
theorem restarted_switch (ps : PlanStore) :
    (∀ r f, ps.restarted.switch ≠ .trial r f) ∧ ((∀ r f, ps.switch ≠ .trial r f) → ps.restarted.switch = ps.switch) := by
  unfold PlanStore.restarted
  cases hs : ps.switch with
  | steady => simp
  | pending target mode => simp
  | trial remaining fallback => simp

/-- Settles O43: RESTART is the restart of each block and its own completion. -/
theorem restartKeepsConfiguration : Obligations.RestartKeepsConfiguration := by
  unfold Obligations.RestartKeepsConfiguration
  intro c rest s hready hwf hcounter
  have hexec : exec .restart s = .next (workRestart c (beginCommand rest s)) := exec_of_ready hready rfl
  obtain ⟨hno, hsame⟩ := restarted_switch s.plans
  have hnotices : s.notices.restarted = _ := restarted_notices hcounter
  refine ⟨_, hexec, ?_, ?_, rfl, restarted_queues, fun n => ?_, rfl, rfl, rfl, rfl, rfl, hno, hsame, rfl, fun tag => ?_, ?_, rfl, rfl, ?_,
    rfl, rfl, rfl, rfl⟩
  · refine ⟨?_, ?_, ?_, ?_, ?_⟩ <;> simp [workRestart, restartBlocks, Engine.restarted]
  · simp [workRestart, restartBlocks, Engine.restarted]
  · simp [workRestart, restartBlocks]
  · exact get_changeCurrent rfl tag hwf
  · exact congrArg NoticeList.records hnotices
  · exact congrArg NoticeList.counter hnotices

end Sys2Proof.Proofs.CellStore
end

section
/-! PROOFS. WRITE PORT: its checks, the settings it writes, and the traffic that it ends where it disables a port (R28, R31, R32, R50, R51,
R98, R120, R147). -/

namespace Sys2Proof.Proofs.CellStore

open Sys2Proof.Machine Sys2Proof.Laws Sys2Proof.Claims Sys2Proof.Proofs.CellLink

/-! ## Operands -/

theorem tribOf_byteOf (n : Trib) : tribOf (byteOf n.val) = some n := by
  revert n
  decide

theorem tribOf_of_gt {b : Byte} (h : 7 < b.toNat) : tribOf b = none := dif_neg (by omega)

theorem flagOf_flagByte (b : Bool) : flagOf (flagByte b) = some b := by
  cases b <;> rfl

theorem flagOf_of_gt {b : Byte} (h : 1 < b.toNat) : flagOf b = none := by
  have h0 : b ≠ 0 := fun e => by simp [e] at h
  have h1 : b ≠ 1 := fun e => by simp [e] at h
  simp only [flagOf, h0, h1, if_false]

theorem portEntryOf_of_operands {n : Trib} {e : PortEntry} {operands : List Byte} (h : PortOperands n e operands) :
    portEntryOf operands = some e := by
  obtain ⟨-, henable, hupFloor, hupCeiling, hdownFloor, hdownCeiling, hrange⟩ := h
  simp only [portEntryOf, henable, flagOf_flagByte, hupFloor, hupCeiling, hdownFloor, hdownCeiling]
  exact if_pos hrange

theorem tribOf_of_operands {n : Trib} {e : PortEntry} {operands : List Byte} (h : PortOperands n e operands) :
    tribOf (byteAt operands 0) = some n := by
  rw [h.1, tribOf_byteOf]

theorem operands_of_bad {operands : List Byte} (h : PortOperandsBad operands) :
    tribOf (byteAt operands 0) = none ∨ portEntryOf operands = none := by
  obtain htrib | hflag | hrange := h
  · exact .inl (tribOf_of_gt htrib)
  · right
    simp only [portEntryOf, flagOf_of_gt hflag]
  · right
    unfold portEntryOf
    dsimp only
    split
    · exact if_neg (by omega)
    · rfl

/-! ## The checks of WRITE PORT (R32, R50) -/

section WritePort

variable {turn : Turn} {c : TakenCommand} {n : Trib} {e : PortEntry} {s : State}

theorem roomFor_iff {table : Vector PortEntry 8} : roomFor table s = true ↔ RoomFor table s := decide_eq_true_iff

theorem workWritePort_of_bad (h : PortOperandsBad c.operands) : workWritePort turn c s = complete c .range [] s := by
  unfold workWritePort
  split
  · next hn he =>
    obtain hbad | hbad := operands_of_bad h
    · exact absurd (hn.symm.trans hbad) (by simp)
    · exact absurd (he.symm.trans hbad) (by simp)
  · rfl

theorem workWritePort_of_noRoom (h : PortOperands n e c.operands) (hroom : ¬RoomFor (s.ports.table.set n e) s) :
    workWritePort turn c s =
      complete c .noRoom (bytes16 s.store.free ++ bytes16 (reserveOf (s.ports.table.set n e) s.store)) s := by
  simp only [workWritePort, tribOf_of_operands h, portEntryOf_of_operands h, mt roomFor_iff.mp hroom, Bool.false_eq_true, if_false]

theorem workWritePort_of_room (h : PortOperands n e c.operands) (hroom : RoomFor (s.ports.table.set n e) s) :
    workWritePort turn c s = complete c .ok [] (applyPortEntry turn n e s) := by
  simp only [workWritePort, tribOf_of_operands h, portEntryOf_of_operands h, roomFor_iff.mpr hroom, if_true]

/-! ## What settings do to a port (R36, R51) -/

theorem table_setTable (n : Trib) (e : PortEntry) (s : State) : (setTable (s.ports.table.set n e) s).ports.table[n] = e :=
  get_set_same s.ports.table n e

theorem postStateChange_same (n : Trib) (a : PortState) : postStateChange n a a = id := by
  funext u
  exact if_pos rfl

/-- Settings with the enable flag as it was are written and change no port's state (R50). -/
theorem applyPortEntry_of_same (h : e.enable = s.ports.table[n].enable) :
    applyPortEntry turn n e s = setTable (s.ports.table.set n e) s := by
  have hclose : (s.ports.table[n].enable && !e.enable) = false := by simp [h]
  have hstate : (setTable (s.ports.table.set n e) s).ports.state n = s.ports.state n := by
    unfold Ports.state
    rw [table_setTable, h]
    rfl
  simp only [applyPortEntry, hclose, Bool.false_eq_true, if_false, hstate, postStateChange_same]
  cases turn <;> rfl

/-- The enable flag set: the port goes UP or DOWN by its record of the receiver (R36, R51). -/
theorem applyPortEntry_of_enable (h : s.ports.table[n].enable = false) (he : e.enable = true) :
    applyPortEntry turn n e s =
      post .portChange (byteOf n.val) (if s.ports.rxLocked[n] then 2 else 1) (setTable (s.ports.table.set n e) s) := by
  have henabled : (setTable (s.ports.table.set n e) s).ports.table[n].enable = true := by rw [table_setTable, he]
  have hposting : postStateChange n (s.ports.state n) ((setTable (s.ports.table.set n e) s).ports.state n) =
      post .portChange (byteOf n.val) (if s.ports.rxLocked[n] then 2 else 1) := by
    funext u
    rw [state_of_disabled h]
    cases hr : s.ports.rxLocked[n] with
    | true => rw [state_of_locked henabled hr]; rfl
    | false => rw [state_of_unlocked henabled hr]; rfl
  simp only [applyPortEntry, h, hposting, Bool.false_and, Bool.false_eq_true, if_false]
  cases turn <;> rfl

/-- The end of a port's traffic beside the posting that it is DISABLED (R51, R147). -/
def portDisabled (turn : Turn) (n : Trib) (s : State) : State :=
  postBeside turn (post .portChange (byteOf n.val) 0) (disableTraffic n) s

/-- The enable flag cleared: the traffic of the port ends beside the posting of its state (R51, R147). -/
theorem applyPortEntry_of_disable (h : s.ports.table[n].enable = true) (he : e.enable = false) :
    applyPortEntry turn n e s = portDisabled turn n (setTable (s.ports.table.set n e) s) := by
  have hdisabled : (setTable (s.ports.table.set n e) s).ports.table[n].enable = false := by rw [table_setTable, he]
  have hposting : postStateChange n (s.ports.state n) ((setTable (s.ports.table.set n e) s).ports.state n) =
      post .portChange (byteOf n.val) 0 := by
    funext u
    rw [state_of_disabled hdisabled]
    cases hr : s.ports.rxLocked[n] with
    | true => rw [state_of_locked h hr]; rfl
    | false => rw [state_of_unlocked h hr]; rfl
  simp only [applyPortEntry, h, he, hposting, Bool.not_false, Bool.and_self, if_true]
  rfl

end WritePort

/-- Settles O51: the checks in their order, and settings that leave the port's state. -/
theorem writePortChecksThenWrites : Obligations.WritePortChecksThenWrites := by
  unfold Obligations.WritePortChecksThenWrites
  intro turn c rest s hready
  have hexec : exec (.writePort turn) s = .next (workWritePort turn c (beginCommand rest s)) := exec_of_ready hready rfl
  refine ⟨fun hbad => ?_, fun n e hoperands => ⟨fun hroom => ?_, fun hroom hsame => ?_⟩⟩
  · rw [workWritePort_of_bad hbad] at hexec
    exact answers_complete hexec rfl
  · rw [workWritePort_of_noRoom (s := beginCommand rest s) hoperands hroom] at hexec
    exact answers_complete hexec rfl
  · rw [workWritePort_of_room (s := beginCommand rest s) hoperands hroom,
      applyPortEntry_of_same (s := beginCommand rest s) hsame] at hexec
    exact answers_complete hexec rfl

/-! ## The cut of all of an uplink queue (R28) -/

theorem messagesEnded_eq_messagesOf (q : UpQueue) : messagesEnded q = messagesOf q := by
  rw [messagesEnded_eq, messagesOf]
  cases q.cells.getLast? with
  | none => rfl
  | some c => simp only [isEnd_iff]; rfl

theorem cutAll_bank (n : Trib) (cause : CutCause) (s : State) :
    (cutAll n cause s).bank.up =
        s.bank.up.set n
          { s.bank.up[n] with messagesCut := s.bank.up[n].messagesCut + BitVec.ofNat 32 (messagesOf s.store.up[n]) }
      ∧ (cutAll n cause s).bank.down = s.bank.down ∧ (cutAll n cause s).bank.trunk = s.bank.trunk := by
  rw [← messagesEnded_eq_messagesOf]
  unfold cutAll
  dsimp only
  split <;> simp [UplinkCounters.addMessagesCut]

/-- What a cut's posting leaves in the notice list and the Management counters depends on them alone. -/
theorem cutPosting_congr {n : Trib} {cause : Byte} {q : UpQueue} {s t : State} (hn : t.notices = s.notices)
    (hm : t.bank.management = s.bank.management) :
    (cutPosting n cause q t).notices = (cutPosting n cause q s).notices
      ∧ (cutPosting n cause q t).bank.management = (cutPosting n cause q s).bank.management := by
  unfold cutPosting
  split
  · exact ⟨hn, hm⟩
  · exact ⟨post_notices_congr hn, post_management_congr hn hm⟩

theorem cutAll_posts (n : Trib) (cause : CutCause) (s : State) :
    (cutAll n cause s).notices = (cutPosting n cause.detail s.store.up[n] s).notices
      ∧ (cutAll n cause s).bank.management = (cutPosting n cause.detail s.store.up[n] s).bank.management := by
  have hcut : cutAll n cause s =
      cutPosting n cause.detail s.store.up[n] (countUp n (.addMessagesCut (messagesEnded s.store.up[n])) (cutAllQueue n s)) := by
    unfold cutAll cutPosting
    rw [← messagesEnded_eq_messagesOf]
    dsimp only
    split <;> rfl
  rw [hcut]
  exact cutPosting_congr (by simp) (by simp)

/-- The scheduler after the cut, with the abandon entry owed in the words of its condition (R28, R90). -/
theorem cutAll_owes (n : Trib) (cause : CutCause) (s : State) :
    (cutAll n cause s).scheduler =
      { s.scheduler with
        borrow := s.scheduler.borrow.filter fun m => m != n
        abandon := s.scheduler.abandon ++
          (match s.store.up[n].head with
            | some h => [{ trib := n, tag := h.tag, next := h.next }]
            | none => []) } := by
  rw [cutAll_scheduler]
  cases s.store.up[n].head <;> rfl

theorem unposted_cutAll (n : Trib) (cause : CutCause) (s : State) :
    unposted (cutAll n cause s) =
      countUp n (.addMessagesCut (messagesEnded s.store.up[n])) (cutAllQueue n (unposted s)) := by
  have hqueue : unposted (cutAllQueue n s) = cutAllQueue n (unposted s) := by
    have hstore : (unposted s).store = s.store := rfl
    unfold cutAllQueue
    simp only [hstore]
    cases s.store.up[n].head <;> rfl
  rw [← hqueue]
  unfold cutAll
  dsimp only
  split
  · rfl
  · rw [unposted_post]
    rfl

/-! ## A downlink closed (R31, R120) -/

theorem get_closeDownlink {s : State} (h : s.channels.wf = true) (n : Trib) (tag : Nat) :
    (closeDownlink n s).channels.get tag =
      { s.channels.get tag with current := giveUpIf (fun m => m == n) (s.channels.get tag).current } :=
  get_discardFor_giveUpIf (s := flushDown n s) h n tag

/-! ## The end of a port's traffic (R51) -/

theorem unposted_closeDownlink (n : Trib) (i : Ingress) (s : State) :
    unposted (closeDownlink n (setIngress n i s)) = closeDownlink n (setIngress n i (unposted s)) := rfl

/-- A disable works on the traffic without looking at the notices. -/
theorem unposted_disableTraffic (n : Trib) {u v : State} (h : unposted u = unposted v) :
    unposted (disableTraffic n u) = unposted (disableTraffic n v) := by
  have hq : u.store.up[n] = v.store.up[n] := by rw [(blocks_of_unposted h).2.1]
  simp only [disableTraffic, unposted_closeDownlink, unposted_cutAll, h, hq]

/-- The queues, the scheduler and the counters after a disable, but for its postings (R28, R31, R98, R120). -/
theorem disableTraffic_store (n : Trib) (s : State) :
    (disableTraffic n s).store =
      { s.store with
        free := s.store.free + s.store.up[n].cells.length + s.store.down[n].length
        up := s.store.up.set n { cells := [], complete := 0, head := none }
        down := s.store.down.set n [] } := by
  unfold disableTraffic
  rw [closeDownlink_store, show (setIngress n .idle (cutAll n .portDisabled s)).store = (cutAll n .portDisabled s).store from rfl,
    cutAll_store]
  rfl

/-- What a disable leaves as its cut leaves it. -/
theorem disableTraffic_uplink (n : Trib) (s : State) :
    (disableTraffic n s).scheduler = (cutAll n .portDisabled s).scheduler
      ∧ (disableTraffic n s).bank.up = (cutAll n .portDisabled s).bank.up
      ∧ (disableTraffic n s).bank.trunk = (cutAll n .portDisabled s).bank.trunk := by
  simp only [disableTraffic, closeDownlink_leaves, closeDownlink_bank, setIngress_leaves, and_self]

theorem disableTraffic_posts (n : Trib) (s : State) :
    (disableTraffic n s).notices = (cutPosting n 7 s.store.up[n] s).notices
      ∧ (disableTraffic n s).bank.management = (cutPosting n 7 s.store.up[n] s).bank.management := by
  obtain ⟨hnotices, hmanagement⟩ := cutAll_posts n .portDisabled s
  constructor
  · simp only [disableTraffic, closeDownlink_leaves, setIngress_leaves]
    exact hnotices
  · simp only [disableTraffic, closeDownlink_bank, setIngress_leaves]
    exact hmanagement

/-- A posting beside work that posts a cut, where the work looks at the cell store alone: both postings in that order (R147). -/
theorem postBeside_cutPosting {turn : Turn} {kind : NoticeKind} {subject detail cause : Byte} {n : Trib} {q : UpQueue}
    {work : State → State} {s u : State} (hn : u.notices = s.notices) (hm : u.bank.management = s.bank.management)
    (hw : ∀ v, v.store = u.store → (work v).notices = (cutPosting n cause q v).notices
      ∧ (work v).bank.management = (cutPosting n cause q v).bank.management) :
    (postBeside turn (post kind subject detail) work u).notices =
        (bothPosted turn (post kind subject detail) (cutPosting n cause q) s).notices
      ∧ (postBeside turn (post kind subject detail) work u).bank.management =
        (bothPosted turn (post kind subject detail) (cutPosting n cause q) s).bank.management := by
  cases turn with
  | first =>
    obtain ⟨hwn, hwm⟩ := hw (post kind subject detail u) (by simp)
    obtain ⟨hcn, hcm⟩ := cutPosting_congr (n := n) (cause := cause) (q := q)
      (post_notices_congr (kind := kind) (subject := subject) (detail := detail) hn) (post_management_congr hn hm)
    exact ⟨hwn.trans hcn, hwm.trans hcm⟩
  | last =>
    obtain ⟨hwn, hwm⟩ := hw u rfl
    obtain ⟨hcn, hcm⟩ := cutPosting_congr (n := n) (cause := cause) (q := q) hn hm
    exact ⟨post_notices_congr (hwn.trans hcn), post_management_congr (hwn.trans hcn) (hwm.trans hcm)⟩

/-! ## A port disabled (R51) -/

section PortDisabled

variable (turn : Turn) (n : Trib) (s : State)

theorem unposted_portDisabled : unposted (portDisabled turn n s) = unposted (disableTraffic n s) :=
  postBeside_eq (unposted_post _ _ _) (unposted_disableTraffic n (unposted_post _ _ _ _))

@[simp] theorem portDisabled_leaves :
    (portDisabled turn n s).pins = s.pins ∧ (portDisabled turn n s).links = s.links ∧ (portDisabled turn n s).plans = s.plans
      ∧ (portDisabled turn n s).engine = s.engine ∧ (portDisabled turn n s).survey = s.survey := by
  unfold portDisabled
  cases turn <;> simp [postBeside]

theorem portDisabled_ports : (portDisabled turn n s).ports = { s.ports with ingress := s.ports.ingress.set n .idle } := by
  obtain ⟨hports, -⟩ := blocks_of_unposted (unposted_portDisabled turn n s)
  rw [hports]
  simp [disableTraffic]

theorem portDisabled_store :
    (portDisabled turn n s).store =
      { s.store with
        free := s.store.free + s.store.up[n].cells.length + s.store.down[n].length
        up := s.store.up.set n { cells := [], complete := 0, head := none }
        down := s.store.down.set n [] } := by
  obtain ⟨-, hstore, -⟩ := blocks_of_unposted (unposted_portDisabled turn n s)
  rw [hstore, disableTraffic_store]

theorem portDisabled_scheduler :
    (portDisabled turn n s).scheduler =
      { s.scheduler with
        borrow := s.scheduler.borrow.filter fun m => m != n
        abandon := s.scheduler.abandon ++
          (match s.store.up[n].head with
            | some h => [{ trib := n, tag := h.tag, next := h.next }]
            | none => []) } := by
  obtain ⟨-, -, -, hscheduler, -⟩ := blocks_of_unposted (unposted_portDisabled turn n s)
  exact hscheduler.trans ((disableTraffic_uplink n s).1.trans (cutAll_owes n .portDisabled s))

theorem portDisabled_bank :
    (portDisabled turn n s).bank.up =
        s.bank.up.set n
          { s.bank.up[n] with messagesCut := s.bank.up[n].messagesCut + BitVec.ofNat 32 (messagesOf s.store.up[n]) }
      ∧ (portDisabled turn n s).bank.down =
        s.bank.down.set n
          { s.bank.down[n] with discarded := s.bank.down[n].discarded + BitVec.ofNat 32 (s.channels.openCount n) }
      ∧ (portDisabled turn n s).bank.trunk = s.bank.trunk := by
  obtain ⟨-, -, -, -, hup, hdown, htrunk⟩ := blocks_of_unposted (unposted_portDisabled turn n s)
  obtain ⟨hcutUp, hcutDown, hcutTrunk⟩ := cutAll_bank n .portDisabled s
  obtain ⟨-, huplink, huplinkTrunk⟩ := disableTraffic_uplink n s
  refine ⟨hup.trans (huplink.trans hcutUp), ?_, htrunk.trans (huplinkTrunk.trans hcutTrunk)⟩
  rw [hdown, disableTraffic, closeDownlink_bank]
  simp only [setIngress_leaves, cutAll_leaves, hcutDown]
  rfl

theorem portDisabled_givenUp (h : s.channels.wf = true) : GivenUp (fun m => m == n) s (portDisabled turn n s) := by
  obtain ⟨-, -, hchannels, -⟩ := blocks_of_unposted (unposted_portDisabled turn n s)
  have hsame : (setIngress n .idle (cutAll n .portDisabled s)).channels = s.channels := by simp
  refine givenUp_of_get fun tag => ?_
  rw [hchannels, disableTraffic, get_closeDownlink (hsame ▸ h), hsame]

/-- Both postings of a disable, over a notice list and Management counters as given (R147). -/
theorem portDisabled_posts {r : State} (hn : s.notices = r.notices) (hm : s.bank.management = r.bank.management) :
    (portDisabled turn n s).notices =
        (bothPosted turn (post .portChange (byteOf n.val) 0) (cutPosting n 7 s.store.up[n]) r).notices
      ∧ (portDisabled turn n s).bank.management =
        (bothPosted turn (post .portChange (byteOf n.val) 0) (cutPosting n 7 s.store.up[n]) r).bank.management := by
  refine postBeside_cutPosting hn hm fun v hv => ?_
  rw [← hv]
  exact disableTraffic_posts n v

end PortDisabled

/-- A posting is the same whatever the engine holds. -/
theorem post_engine (kind : NoticeKind) (subject detail : Byte) (e : Engine) (s : State) :
    post kind subject detail { s with engine := e } = { post kind subject detail s with engine := e } := by
  unfold post
  dsimp only
  repeat' split
  all_goals rfl

/-- Settles O52: a port opened is one posting over its settings, and a port closed is the end of its traffic beside that posting. -/
theorem writePortChangesEnable : Obligations.WritePortChangesEnable := by
  unfold Obligations.WritePortChangesEnable
  intro turn c rest s n e hready hoperands hroom
  have hexec : exec (.writePort turn) s = .next (workWritePort turn c (beginCommand rest s)) := exec_of_ready hready rfl
  rw [workWritePort_of_room (s := beginCommand rest s) hoperands hroom] at hexec
  constructor
  · intro hdisabled henable
    rw [applyPortEntry_of_enable (s := beginCommand rest s) hdisabled henable] at hexec
    exact answers_complete hexec (post_engine _ _ _ _ { s with ports := { s.ports with table := s.ports.table.set n e } })
  · intro henabled hdisable hwf
    rw [applyPortEntry_of_disable (s := beginCommand rest s) henabled hdisable] at hexec
    let written := setTable (s.ports.table.set n e) (beginCommand rest s)
    obtain ⟨hpins, hlinks, hplans, hengine, hsurvey⟩ := portDisabled_leaves turn n written
    obtain ⟨hup, hdown, htrunk⟩ := portDisabled_bank turn n written
    obtain ⟨hnotices, hmanagement⟩ := portDisabled_posts turn n written (r := s) rfl rfl
    exact ⟨_, hexec, completed_complete hengine, portDisabled_ports turn n written, portDisabled_store turn n written,
      portDisabled_scheduler turn n written, portDisabled_givenUp turn n written hwf, hup, hdown, hnotices, hmanagement, hplans, hlinks,
      hsurvey, hpins, htrunk⟩

end Sys2Proof.Proofs.CellStore
end

section
/-! PROOFS. FLUSH PORT, side by side: what it does to each side it names, and that it leaves the other (R28, R31, R52, R98, R120). -/

namespace Sys2Proof.Proofs.CellStore

open Sys2Proof.Machine Sys2Proof.Laws Sys2Proof.Claims Sys2Proof.Proofs.CellLink

/-! ## The uplink side -/

/-- A flush of the uplink side is, but for the ingress record, the cut of all of Un (R52). -/
theorem flushUplink_as_cut (n : Trib) (s : State) :
    (flushUplink n s).store = (cutAll n .flushed s).store ∧ (flushUplink n s).scheduler = (cutAll n .flushed s).scheduler
      ∧ (flushUplink n s).notices = (cutAll n .flushed s).notices ∧ (flushUplink n s).bank = (cutAll n .flushed s).bank := by
  unfold flushUplink
  cases s.ports.ingress[n] <;> exact ⟨rfl, rfl, rfl, rfl⟩

theorem flushUplink_ports (n : Trib) (s : State) :
    (flushUplink n s).ports =
      { s.ports with
        ingress :=
          match s.ports.ingress[n] with
          | .opened _ _ _ _ _ => s.ports.ingress.set n .discarding
          | _ => s.ports.ingress } := by
  unfold flushUplink
  cases s.ports.ingress[n] <;> simp

theorem flushUplink_store (n : Trib) (s : State) :
    (flushUplink n s).store =
      { s.store with
        free := s.store.free + s.store.up[n].cells.length
        up := s.store.up.set n { cells := [], complete := 0, head := none } } := by
  obtain ⟨hstore, -⟩ := flushUplink_as_cut n s
  rw [hstore, cutAll_store]
  rfl

/-- A flush of the uplink side counts as its cut does, in the Uplink group of Tn alone (R28). -/
theorem flushUplink_bank (n : Trib) (s : State) :
    (flushUplink n s).bank.up =
        s.bank.up.set n
          { s.bank.up[n] with messagesCut := s.bank.up[n].messagesCut + BitVec.ofNat 32 (messagesOf s.store.up[n]) }
      ∧ (flushUplink n s).bank.down = s.bank.down ∧ (flushUplink n s).bank.trunk = s.bank.trunk := by
  obtain ⟨-, -, -, hbank⟩ := flushUplink_as_cut n s
  rw [hbank]
  exact cutAll_bank n .flushed s

/-- The posting of a flush of the uplink side, over a notice list and Management counters as given (R28). -/
theorem flushUplink_posts {n : Trib} {r s : State} (hn : s.notices = r.notices) (hm : s.bank.management = r.bank.management) :
    (flushUplink n s).notices = (cutPosting n 8 s.store.up[n] r).notices
      ∧ (flushUplink n s).bank.management = (cutPosting n 8 s.store.up[n] r).bank.management := by
  obtain ⟨-, -, hnotices, hbank⟩ := flushUplink_as_cut n s
  obtain ⟨hcutNotices, hcutManagement⟩ := cutAll_posts n .flushed s
  obtain ⟨hsameNotices, hsameManagement⟩ := cutPosting_congr (n := n) (cause := 8) (q := s.store.up[n]) hn hm
  rw [hnotices, hbank]
  exact ⟨hcutNotices.trans hsameNotices, hcutManagement.trans hsameManagement⟩

theorem flushUplink_owes (n : Trib) (s : State) :
    (flushUplink n s).scheduler =
      { s.scheduler with
        borrow := s.scheduler.borrow.filter fun m => m != n
        abandon := s.scheduler.abandon ++
          (match s.store.up[n].head with
            | some h => [{ trib := n, tag := h.tag, next := h.next }]
            | none => []) } := by
  obtain ⟨-, hscheduler, -⟩ := flushUplink_as_cut n s
  exact hscheduler.trans (cutAll_owes n .flushed s)

/-! ## The downlink side -/

theorem closeDownlink_givenUp {n : Trib} {r s : State} (hchannels : s.channels = r.channels) (h : r.channels.wf = true) :
    GivenUp (fun m => m == n) r (closeDownlink n s) :=
  givenUp_of_get fun tag => by rw [get_closeDownlink (hchannels ▸ h), hchannels]

/-- Dn emptied and its open messages charged, where the queue, the channel map and the counters are as given (R31, R120). -/
theorem closeDownlink_empties {n : Trib} {r s : State} (hdown : s.store.down = r.store.down) (hchannels : s.channels = r.channels)
    (hbank : s.bank.down = r.bank.down) :
    (closeDownlink n s).store.free = s.store.free + r.store.down[n].length
      ∧ (closeDownlink n s).store.down = r.store.down.set n []
      ∧ (closeDownlink n s).bank.down =
        r.bank.down.set n
          { r.bank.down[n] with discarded := r.bank.down[n].discarded + BitVec.ofNat 32 (r.channels.openCount n) } := by
  rw [closeDownlink_store, closeDownlink_bank, hdown, hchannels, hbank]
  exact ⟨rfl, rfl, rfl⟩

/-! ## FLUSH PORT -/

section FlushPort

variable {c : TakenCommand} {n : Trib} {s : State}

theorem workFlushPort_of_bad (h : 7 < (byteAt c.operands 0).toNat ∨ (byteAt c.operands 1).toNat = 0 ∨ 3 < (byteAt c.operands 1).toNat) :
    workFlushPort c s = complete c .range [] s := by
  obtain htrib | hside := h
  · simp only [workFlushPort, tribOf_of_gt htrib]
    rfl
  · have hnone : (byteAt c.operands 1).toNat ≠ 1 ∧ (byteAt c.operands 1).toNat ≠ 2 ∧ (byteAt c.operands 1).toNat ≠ 3 := by omega
    simp only [workFlushPort, hnone, if_false]
    split <;> rfl

theorem workFlushPort_uplink (hn : byteAt c.operands 0 = byteOf n.val) (hside : byteAt c.operands 1 = 1) :
    workFlushPort c s = complete c .ok [byteOf s.store.up[n].cells.length, byteOf 0] (flushUplink n s) := by
  simp only [workFlushPort, hn, tribOf_byteOf, hside]
  rfl

theorem workFlushPort_downlink (hn : byteAt c.operands 0 = byteOf n.val) (hside : byteAt c.operands 1 = 2) :
    workFlushPort c s = complete c .ok [byteOf 0, byteOf s.store.down[n].length] (closeDownlink n s) := by
  simp only [workFlushPort, hn, tribOf_byteOf, hside]
  rfl

theorem workFlushPort_both (hn : byteAt c.operands 0 = byteOf n.val) (hside : byteAt c.operands 1 = 3) :
    workFlushPort c s =
      complete c .ok [byteOf s.store.up[n].cells.length, byteOf s.store.down[n].length] (closeDownlink n (flushUplink n s)) := by
  simp only [workFlushPort, hn, tribOf_byteOf, hside]
  rfl

end FlushPort

/-- Settles O54: by the sides named, the flush of each over the part with the execution begun. -/
theorem flushPortEmptiesNamedSides : Obligations.FlushPortEmptiesNamedSides := by
  unfold Obligations.FlushPortEmptiesNamedSides
  intro c rest s hready
  have hexec : exec .flushPort s = .next (workFlushPort c (beginCommand rest s)) := exec_of_ready hready rfl
  constructor
  · intro hbad
    rw [workFlushPort_of_bad hbad] at hexec
    exact answers_complete hexec rfl
  · intro n hn hwf hside
    have hstore := flushUplink_store n (beginCommand rest s)
    obtain ⟨hup, hdown, htrunk⟩ := flushUplink_bank n (beginCommand rest s)
    obtain ⟨hnotices, hmanagement⟩ := flushUplink_posts (n := n) (r := s) (s := beginCommand rest s) rfl rfl
    obtain ⟨-, hpins, hlinks, hplans, hchannels, hengine, hsurvey⟩ := flushUplink_leaves n (beginCommand rest s)
    have hscheduler := flushUplink_owes n (beginCommand rest s)
    have hports := flushUplink_ports n (beginCommand rest s)
    obtain ⟨hfree, hqueue, hother⟩ := CellStore.mk.inj hstore
    -- below, only these facts about the uplink side are used, not how it was flushed
    obtain hside | hside | hside := hside
    · rw [workFlushPort_uplink hn hside] at hexec
      generalize flushUplink n (beginCommand rest s) = flushed at *
      refine ⟨_, _, _, hexec, (if_neg (by simp [hside])).symm, (if_pos hside).symm, completed_complete hengine, hfree,
        fun _ => ⟨hqueue, hscheduler, hports, hnotices, hmanagement, hup⟩, fun h => absurd (hside.symm.trans h) (by decide),
        fun h => absurd hside h, fun _ => ⟨hother, hchannels, hdown⟩, hplans, hlinks, hsurvey, hpins, htrunk⟩
    · rw [workFlushPort_downlink hn hside] at hexec
      refine ⟨_, _, _, hexec, (if_pos hside).symm, (if_neg (by simp [hside])).symm, completed_complete rfl, rfl,
        fun h => absurd hside h, fun _ => ⟨rfl, rfl, rfl, rfl, rfl⟩,
        fun _ => ⟨rfl, closeDownlink_givenUp (s := beginCommand rest s) rfl hwf, rfl⟩,
        fun h => absurd (hside.symm.trans h) (by decide), rfl, rfl, rfl, rfl, rfl⟩
    · rw [workFlushPort_both hn hside] at hexec
      generalize flushUplink n (beginCommand rest s) = flushed at *
      obtain ⟨hfreed, hempty, hcharged⟩ := closeDownlink_empties (n := n) hother hchannels hdown
      exact ⟨_, _, _, hexec, (if_neg (by simp [hside])).symm, (if_neg (by simp [hside])).symm, completed_complete hengine,
        hfreed.trans (by rw [hfree]; rfl), fun _ => ⟨hqueue, hscheduler, hports, hnotices, hmanagement, hup⟩,
        fun h => absurd (hside.symm.trans h) (by decide),
        fun _ => ⟨hempty, closeDownlink_givenUp (s := flushed) hchannels hwf, hcharged⟩,
        fun h => absurd (hside.symm.trans h) (by decide), hplans, hlinks, hsurvey, hpins, htrunk⟩

end Sys2Proof.Proofs.CellStore
end

section
/-! PROOFS. The law of ports, port by port: what reaches the queues and the ingress record of one port leaves every other, an UP port owes
nothing, and what closes a port empties it (R36 to R38, R51). -/

namespace Sys2Proof.Proofs.TributaryPorts

open Sys2Proof.Machine Sys2Proof.Safety Sys2Proof.Laws Sys2Proof.Claims Sys2Proof.Proofs.CellLink Sys2Proof.Proofs.CellStore

/-! ## The law of one port -/

/-- The law of ports at one port. -/
structure PortOk (n : Trib) (s : State) : Prop where
  closed : s.ports.isUp n = false → s.store.down[n] = [] ∧ s.ports.ingress[n] = .idle
  disabled : s.ports.table[n].enable = false → s.store.up[n] = .empty

theorem portsOk_iff {s : State} : PortsOk s ↔ ∀ n, PortOk n s :=
  ⟨fun h n => ⟨(h n).1, (h n).2⟩, fun h n => ⟨(h n).closed, (h n).disabled⟩⟩

/-- A port is UP when it is enabled and its receiver is recorded LOCKED (R36). -/
theorem isUp_eq (p : Ports) (n : Trib) : p.isUp n = (p.table[n].enable && p.rxLocked[n]) := by
  unfold Ports.isUp Ports.state
  cases p.table[n].enable <;> cases p.rxLocked[n] <;> rfl

theorem isUp_congr {p q : Ports} {n : Trib} (ht : q.table[n].enable = p.table[n].enable) (hr : q.rxLocked[n] = p.rxLocked[n]) :
    q.isUp n = p.isUp n := by
  rw [isUp_eq, isUp_eq, ht, hr]

theorem isUp_of_disabled {p : Ports} {n : Trib} (h : p.table[n].enable = false) : p.isUp n = false := by
  rw [isUp_eq, h]
  rfl

/-- The law asks nothing of a port that is UP. -/
theorem portOk_of_up {n : Trib} {s : State} (h : s.ports.isUp n = true) : PortOk n s where
  closed hdown := absurd (h.symm.trans hdown) (by simp)
  disabled he := absurd (h.symm.trans (isUp_of_disabled he)) (by simp)

/-- The law holds at every port but one: what is left of it while an event is at work on that port. -/
def OtherPortsOk (n : Trib) (s : State) : Prop := ∀ m, m ≠ n → PortOk m s

theorem otherPortsOk_of_portsOk {s : State} (h : PortsOk s) (n : Trib) : OtherPortsOk n s := fun m _ => portsOk_iff.mp h m

theorem PortOk.congr {n : Trib} {s t : State} (h : PortOk n s) (hup : t.store.up[n] = s.store.up[n])
    (hdown : t.store.down[n] = s.store.down[n]) (hingress : t.ports.ingress[n] = s.ports.ingress[n])
    (htable : t.ports.table[n].enable = s.ports.table[n].enable) (hrecord : t.ports.rxLocked[n] = s.ports.rxLocked[n]) : PortOk n t := by
  obtain ⟨hclosed, hdisabled⟩ := h
  refine ⟨fun h => ?_, fun h => ?_⟩
  · rw [hdown, hingress]
    exact hclosed (isUp_congr htable hrecord ▸ h)
  · rw [hup]
    exact hdisabled (htable ▸ h)

theorem portsOk_of_leaves {s t : State} (h : PortsOk s) (hstore : t.store = s.store) (hports : t.ports = s.ports) : PortsOk t := by
  simpa only [PortsOk, hstore, hports] using h

theorem otherPortsOk_of_leaves {n : Trib} {s t : State} (h : OtherPortsOk n s) (hstore : t.store = s.store) (hports : t.ports = s.ports) :
    OtherPortsOk n t :=
  fun m hm => (h m hm).congr (by rw [hstore]) (by rw [hstore]) (by rw [hports]) (by rw [hports]) (by rw [hports])

/-! ## What reaches one port -/

/-- A change that reaches the queues and the ingress record of Tn alone, and no settings and no record of a receiver. -/
structure MovedAt (n : Trib) (s t : State) : Prop where
  table : t.ports.table = s.ports.table
  rxLocked : t.ports.rxLocked = s.ports.rxLocked
  up : ∀ m, m ≠ n → t.store.up[m] = s.store.up[m]
  down : ∀ m, m ≠ n → t.store.down[m] = s.store.down[m]
  ingress : ∀ m, m ≠ n → t.ports.ingress[m] = s.ports.ingress[m]

theorem MovedAt.trans {n : Trib} {s t u : State} (h : MovedAt n s t) (k : MovedAt n t u) : MovedAt n s u where
  table := k.table.trans h.table
  rxLocked := k.rxLocked.trans h.rxLocked
  up m hm := (k.up m hm).trans (h.up m hm)
  down m hm := (k.down m hm).trans (h.down m hm)
  ingress m hm := (k.ingress m hm).trans (h.ingress m hm)

theorem movedAt_of_leaves (n : Trib) {s t : State} (hstore : t.store = s.store) (hports : t.ports = s.ports) : MovedAt n s t := by
  constructor <;> simp [hstore, hports]

theorem MovedAt.isUp {n : Trib} {s t : State} (h : MovedAt n s t) (m : Trib) : t.ports.isUp m = s.ports.isUp m :=
  isUp_congr (by rw [h.table]) (by rw [h.rxLocked])

/-- A change of one port keeps the law when it leaves the law at that port. -/
theorem MovedAt.portsOk {n : Trib} {s t : State} (moved : MovedAt n s t) (h : OtherPortsOk n s) (hn : PortOk n t) : PortsOk t := by
  refine portsOk_iff.mpr fun m => ?_
  by_cases hm : m = n
  · exact hm ▸ hn
  · exact (h m hm).congr (moved.up m hm) (moved.down m hm) (moved.ingress m hm) (by rw [moved.table]) (by rw [moved.rxLocked])

/-- Whatever reaches an UP port alone keeps the law. -/
theorem MovedAt.portsOk_of_up {n : Trib} {s t : State} (moved : MovedAt n s t) (h : PortsOk s) (hup : s.ports.isUp n = true) :
    PortsOk t :=
  moved.portsOk (otherPortsOk_of_portsOk h n) (portOk_of_up ((moved.isUp n).trans hup))

/-! ## Moves of the queues and the ingress record -/

theorem movedAt_setIngress (n : Trib) (i : Ingress) (s : State) : MovedAt n s (setIngress n i s) where
  table := rfl
  rxLocked := rfl
  up _ _ := rfl
  down _ _ := rfl
  ingress _ hm := get_set_other _ hm _

/-- A change of the store that replaces the uplink queue of Tn and leaves the ports. -/
theorem movedAt_of_up {n : Trib} {q : UpQueue} {s t : State} (hports : t.ports = s.ports) (hup : t.store.up = s.store.up.set n q)
    (hdown : t.store.down = s.store.down) : MovedAt n s t where
  table := by rw [hports]
  rxLocked := by rw [hports]
  up m hm := by rw [hup, get_set_other _ hm]
  down m _ := by rw [hdown]
  ingress m _ := by rw [hports]

/-- A change of the store that replaces the downlink queue of Tn and leaves the ports. -/
theorem movedAt_of_down {n : Trib} {cells : List Cell} {s t : State} (hports : t.ports = s.ports) (hup : t.store.up = s.store.up)
    (hdown : t.store.down = s.store.down.set n cells) : MovedAt n s t where
  table := by rw [hports]
  rxLocked := by rw [hports]
  up m _ := by rw [hup]
  down m hm := by rw [hdown, get_set_other _ hm]
  ingress m _ := by rw [hports]

theorem movedAt_offerUp (n : Trib) (c : Cell) (s : State) : MovedAt n s (offerUp n c s) := by
  by_cases hj : judgeUp n s = .admitted
  · exact movedAt_of_up (by simp) (by rw [offerUp_store_of_admitted hj]) (by rw [offerUp_store_of_admitted hj])
  · exact movedAt_of_leaves n (offerUp_store_of_refused hj) (by simp)

theorem movedAt_offerDown (n : Trib) (c : Cell) (s : State) : MovedAt n s (offerDown n c s) := by
  by_cases hj : judgeDown n s = .admitted
  · exact movedAt_of_down (by simp) (by rw [offerDown_store_of_admitted hj]) (by rw [offerDown_store_of_admitted hj])
  · exact movedAt_of_leaves n (offerDown_store_of_refused hj) (by simp)

theorem movedAt_cutOpen (n : Trib) (cause : CutCause) (s : State) : MovedAt n s (cutOpen n cause s) :=
  movedAt_of_up (by simp) (by rw [cutOpen_store]) (by rw [cutOpen_store])

theorem movedAt_cutAll (n : Trib) (cause : CutCause) (s : State) : MovedAt n s (cutAll n cause s) :=
  movedAt_of_up (by simp) (by rw [cutAll_store]) (by rw [cutAll_store])

theorem movedAt_closeDownlink (n : Trib) (s : State) : MovedAt n s (closeDownlink n s) :=
  movedAt_of_down (by simp) rfl rfl

theorem movedAt_endIngress (n : Trib) (s : State) : MovedAt n s (endIngress n s) := by
  obtain ⟨tag, channel, limit, admitted, next, h⟩ | h := opened_or_closed s.ports.ingress[n]
  · rw [endIngress_of_opened h]
    exact (movedAt_cutOpen n _ s).trans (movedAt_setIngress n _ _)
  · rw [endIngress_of_closed h]
    exact movedAt_setIngress n _ s

theorem movedAt_flushUplink (n : Trib) (s : State) : MovedAt n s (flushUplink n s) := by
  unfold flushUplink
  dsimp only
  split
  · exact (movedAt_cutAll n _ s).trans (movedAt_setIngress n _ _)
  · exact movedAt_cutAll n _ s
  · exact movedAt_cutAll n _ s

/-! ## Arrivals from a tributary -/

section TributaryArrival

variable {n : Trib} {inv : State → Prop}

/-- What counts, cuts, offers and records at one port keep, an arrival from its tributary keeps: it does nothing else (R39 to R47). -/
theorem tribArrival_keeps (counted : ∀ f s, inv s → inv (countUp n f s)) (cut : ∀ cause s, inv s → inv (cutOpen n cause s))
    (offered : ∀ c s, inv s → inv (offerUp n c s)) (recorded : ∀ i s, inv s → inv (setIngress n i s)) (c : Cell) {s : State}
    (h : inv s) : inv (tribArrival n c s) := by
  have starts {u : State} (hu : inv u) : inv (startMessage n c u) := recorded _ _ (offered _ _ hu)
  have givesUp (cause : CutCause) {u : State} (hu : inv u) : inv (giveUpAt n cause c u) := recorded _ _ (cut _ _ hu)
  have continues (tag : Tag) (channel : Channel) (limit admitted : Nat) (next : Index) :
      inv (continueMessage n tag channel limit admitted next c s) := by
    unfold continueMessage
    split
    · exact givesUp _ h
    · split
      · exact givesUp _ h
      · split
        · exact recorded _ _ (offered _ _ h)
        · exact givesUp _ (offered _ _ h)
  unfold tribArrival
  split
  · exact counted _ _ h
  · split
    · unfold malformedUp
      dsimp only
      split
      · exact recorded _ _ (cut _ _ (counted _ _ h))
      · exact counted _ _ h
      · exact counted _ _ h
    · split
      · unfold ingressIdle
        split
        · exact starts h
        · exact starts h
        · exact counted _ _ h
        · exact counted _ _ h
      · unfold ingressOpen
        split
        · exact starts (cut _ _ h)
        · exact starts (cut _ _ h)
        · exact continues _ _ _ _ _
        · exact continues _ _ _ _ _
      · unfold ingressDiscarding
        split
        · exact starts h
        · exact starts h
        · exact h
        · exact recorded _ _ h

end TributaryArrival

theorem movedAt_tribArrival (n : Trib) (c : Cell) (s : State) : MovedAt n s (tribArrival n c s) :=
  tribArrival_keeps (inv := MovedAt n s) (fun _ _ h => h.trans (movedAt_of_leaves n rfl rfl))
    (fun cause u h => h.trans (movedAt_cutOpen n cause u)) (fun c u h => h.trans (movedAt_offerUp n c u))
    (fun i u h => h.trans (movedAt_setIngress n i u)) c (movedAt_of_leaves n rfl rfl)

/-- An arrival comes from a receiver that the port has on record as LOCKED, so the port is UP or DISABLED (R36, R39). -/
theorem portsOk_tribArrival {n : Trib} {s : State} (h : PortsOk s) (hr : s.ports.rxLocked[n] = true) (c : Cell) :
    PortsOk (tribArrival n c s) := by
  cases he : s.ports.table[n].enable with
  | true => exact (movedAt_tribArrival n c s).portsOk_of_up h (by rw [isUp_eq, he, hr]; rfl)
  | false =>
    rw [tribArrival_of_disabled he]
    exact portsOk_of_leaves h rfl rfl

/-! ## Takes and flushes -/

/-- A cell is taken from an uplink queue that holds one, and so of an enabled port (R23). -/
theorem portsOk_of_takenUp {n : Trib} {c : Cell} {rest : List Cell} {s t : State} (h : PortsOk s) (hports : t.ports = s.ports)
    (hcells : s.store.up[n].cells = c :: rest)
    (hstore : t.store = { s.store with free := s.store.free + 1, up := s.store.up.set n (s.store.up[n].afterTake c rest) }) :
    PortsOk t := by
  have moved : MovedAt n s t := movedAt_of_up hports (by rw [hstore]) (by rw [hstore])
  obtain ⟨hclosed, hdisabled⟩ := portsOk_iff.mp h n
  refine moved.portsOk (otherPortsOk_of_portsOk h n) ⟨?_, fun he => ?_⟩
  · rw [hports, hstore]
    exact hclosed
  · rw [hdisabled (by rwa [← hports])] at hcells
    exact absurd hcells (by simp [UpQueue.empty])

theorem portsOk_closeDownlink (n : Trib) {s : State} (h : PortsOk s) : PortsOk (closeDownlink n s) := by
  obtain ⟨hclosed, hdisabled⟩ := portsOk_iff.mp h n
  refine (movedAt_closeDownlink n s).portsOk (otherPortsOk_of_portsOk h n) ⟨fun hup => ⟨?_, (hclosed hup).2⟩, hdisabled⟩
  rw [closeDownlink_store]
  exact get_set_same _ _ _

/-- A flush of the uplink side empties Un, and moves no record that is IDLE (R52). -/
theorem portsOk_flushUplink (n : Trib) {s : State} (h : PortsOk s) : PortsOk (flushUplink n s) := by
  have moved := movedAt_flushUplink n s
  obtain ⟨hclosed, -⟩ := portsOk_iff.mp h n
  refine moved.portsOk (otherPortsOk_of_portsOk h n) ⟨fun hup => ?_, fun _ => ?_⟩
  · obtain ⟨hdown, hidle⟩ := hclosed ((moved.isUp n).symm.trans hup)
    rw [flushUplink_store, flushUplink_ports, hidle]
    exact ⟨hdown, hidle⟩
  · rw [flushUplink_store]
    exact get_set_same _ _ _

/-! ## What closes and opens a port -/

/-- An enabled port closed by a lock loss owes nothing more (R38). -/
theorem portsOk_portClosed {n : Trib} {s : State} (h : OtherPortsOk n s) (he : s.ports.table[n].enable = true) :
    PortsOk (portClosed n s) := by
  have moved : MovedAt n s (portClosed n s) := (movedAt_endIngress n s).trans (movedAt_closeDownlink n _)
  refine moved.portsOk h ⟨fun _ => ⟨?_, ?_⟩, fun hd => ?_⟩
  · rw [(portClosed_downlink n s).1, get_set_same]
  · rw [portClosed_ports, get_set_same]
  · rw [moved.table, he] at hd
    cases hd

/-- A port DISABLED is emptied on both sides (R51). -/
theorem portsOk_disableTraffic {n : Trib} {s : State} (h : OtherPortsOk n s) : PortsOk (disableTraffic n s) := by
  have moved : MovedAt n s (disableTraffic n s) :=
    ((movedAt_cutAll n _ s).trans (movedAt_setIngress n _ _)).trans (movedAt_closeDownlink n _)
  refine moved.portsOk h ⟨fun _ => ⟨?_, ?_⟩, fun _ => ?_⟩
  · rw [disableTraffic_store, get_set_same]
  · simp [disableTraffic]
  · rw [disableTraffic_store, get_set_same]
    rfl

theorem otherPortsOk_setRxLocked {n : Trib} {s : State} (h : PortsOk s) (b : Bool) : OtherPortsOk n (setRxLocked n b s) :=
  fun m hm => (portsOk_iff.mp h m).congr rfl rfl rfl rfl (get_set_other _ hm b)

theorem otherPortsOk_setTable {n : Trib} {s : State} (h : PortsOk s) (e : PortEntry) :
    OtherPortsOk n (setTable (s.ports.table.set n e) s) :=
  fun m hm => (portsOk_iff.mp h m).congr rfl rfl rfl (by rw [setTable_ports, get_set_other _ hm]) rfl

theorem portsOk_of_others {n : Trib} {s : State} (h : OtherPortsOk n s) (hn : PortOk n s) : PortsOk s :=
  (movedAt_of_leaves n rfl rfl).portsOk h hn

/-- A receiver recorded LOCKED can only open its port (R37). -/
theorem portsOk_setRxLocked_true {n : Trib} {s : State} (h : PortsOk s) : PortsOk (setRxLocked n true s) := by
  obtain ⟨-, hdisabled⟩ := portsOk_iff.mp h n
  cases he : s.ports.table[n].enable with
  | true =>
    refine portsOk_of_others (otherPortsOk_setRxLocked h true) (portOk_of_up ?_)
    rw [isUp_eq, setRxLocked_ports, get_set_same, he]
    rfl
  | false =>
    obtain ⟨hclosed, -⟩ := portsOk_iff.mp h n
    exact portsOk_of_others (otherPortsOk_setRxLocked h true) ⟨fun _ => hclosed (isUp_of_disabled he), hdisabled⟩

/-- A lock loss recorded at a DISABLED port leaves it as it is (R38). -/
theorem portsOk_setRxLocked_of_disabled {n : Trib} {s : State} (h : PortsOk s) (he : s.ports.table[n].enable = false) (b : Bool) :
    PortsOk (setRxLocked n b s) := by
  obtain ⟨hclosed, hdisabled⟩ := portsOk_iff.mp h n
  exact portsOk_of_others (otherPortsOk_setRxLocked h b) ⟨fun _ => hclosed (isUp_of_disabled he), hdisabled⟩

/-- Settings that disable no enabled port (R50). -/
theorem portsOk_setTable {n : Trib} {e : PortEntry} {s : State} (h : PortsOk s) (he : s.ports.table[n].enable = true → e.enable = true) :
    PortsOk (setTable (s.ports.table.set n e) s) := by
  obtain ⟨hclosed, hdisabled⟩ := portsOk_iff.mp h n
  refine portsOk_of_others (otherPortsOk_setTable h e) ⟨fun hup => hclosed ?_, fun hd => hdisabled ?_⟩
  · rw [isUp_eq, table_setTable] at hup
    rw [isUp_eq]
    cases hs : s.ports.table[n].enable with
    | false => rfl
    | true => simpa [he hs] using hup
  · rw [table_setTable] at hd
    cases hs : s.ports.table[n].enable with
    | false => rfl
    | true => exact (he hs).symm.trans hd

theorem portsOk_postStateChange (n : Trib) (before after : PortState) {s : State} (h : PortsOk s) :
    PortsOk (postStateChange n before after s) :=
  portsOk_of_leaves h (by simp) (by simp)

theorem otherPortsOk_postStateChange {n : Trib} {s : State} (h : OtherPortsOk n s) (before after : PortState) :
    OtherPortsOk n (postStateChange n before after s) :=
  otherPortsOk_of_leaves h (by simp) (by simp)

theorem portsOk_portLockLost (turn : Turn) (n : Trib) {s : State} (h : PortsOk s) : PortsOk (portLockLost turn n s) := by
  have lost : OtherPortsOk n (setRxLocked n false s) := otherPortsOk_setRxLocked h false
  unfold portLockLost
  dsimp only
  split
  · next he =>
    exact postBeside_cases (portsOk_portClosed (otherPortsOk_postStateChange lost _ _) (by simpa using he))
      (portsOk_postStateChange n _ _ (portsOk_portClosed lost he))
  · next he => exact portsOk_setRxLocked_of_disabled h (by simpa using he) false

theorem portsOk_applyPortEntry (turn : Turn) (n : Trib) (e : PortEntry) {s : State} (h : PortsOk s) :
    PortsOk (applyPortEntry turn n e s) := by
  unfold applyPortEntry
  dsimp only
  split
  · have written := otherPortsOk_setTable (n := n) h e
    exact postBeside_cases (portsOk_disableTraffic (otherPortsOk_postStateChange written _ _))
      (portsOk_postStateChange n _ _ (portsOk_disableTraffic written))
  · next hclose =>
    have written : PortsOk (setTable (s.ports.table.set n e) s) := portsOk_setTable h (by simpa using hclose)
    exact postBeside_cases (portsOk_postStateChange n _ _ written) (portsOk_postStateChange n _ _ written)

theorem portsOk_restartBlocks (seq : Byte) (s : State) : PortsOk (restartBlocks seq s) := fun n => by
  obtain ⟨hup, hdown⟩ := restarted_queues n
  exact ⟨fun _ => ⟨hdown, by simp [restartBlocks]⟩, fun _ => hup⟩

end Sys2Proof.Proofs.TributaryPorts
end

section
/-! PROOFS. Every step keeps the law of ports: cells enter the store only at ports that are UP, which a receiver on record as LOCKED and a
sound channel map vouch for, and a port that leaves UP is emptied in the step that closes it (R36 to R38, R51, R111). -/

namespace Sys2Proof.Proofs.TributaryPorts

open Sys2Proof.Machine Sys2Proof.Safety Sys2Proof.Laws Sys2Proof.Claims Sys2Proof.Proofs.CellLink Sys2Proof.Proofs.CellStore

/-! ## Trunk arrivals -/

/-- A cell offered to the downlink queue of an UP port (R112, R115, R117). -/
theorem portsOk_offerDown {n : Trib} {s : State} (h : PortsOk s) (hup : s.ports.isUp n = true) (c : Cell) : PortsOk (offerDown n c s) :=
  (movedAt_offerDown n c s).portsOk_of_up h hup

theorem portsOk_writeConversion (n : Trib) (channel : Channel) (next : Index) {s : State} (h : PortsOk s) :
    PortsOk (writeConversion n channel next s) := by
  unfold writeConversion
  split
  · next hup =>
    have offered := portsOk_offerDown h hup (conversion channel next)
    split
    · exact portsOk_of_leaves offered rfl rfl
    · exact offered
  · exact portsOk_of_leaves h rfl rfl

theorem portsOk_closeGivenUp (tag : Tag) {s : State} (h : PortsOk s) : PortsOk (closeGivenUp tag s) := by
  unfold closeGivenUp
  split
  · next n channel next _ => exact portsOk_of_leaves (portsOk_writeConversion n channel next h) rfl rfl
  · exact portsOk_of_leaves h rfl rfl
  · exact portsOk_of_leaves h rfl rfl
  · exact h
  · exact h

theorem portsOk_giveUpDown (tag : Tag) (n : Trib) (channel : Channel) (next : Index) {s : State} (h : PortsOk s) :
    PortsOk (giveUpDown tag n channel next s) :=
  portsOk_of_leaves h rfl rfl

/-- The start of a downlink message offers its cell only to an UP port (R112). -/
theorem portsOk_startDown (tag : Tag) (c : Cell) {s : State} (h : PortsOk s) : PortsOk (startDown tag c s) := by
  unfold startDown
  dsimp only
  split
  · split <;> exact portsOk_of_leaves h rfl rfl
  · split
    · split <;> exact portsOk_of_leaves h rfl rfl
    · next hup =>
      have offered := portsOk_offerDown h (by simpa using hup) { c with tag := (s.channels.get tag.toNat).channel.setWidth 10 }
      repeat' split
      all_goals exact portsOk_of_leaves offered rfl rfl

theorem portsOk_restartDown (tag : Tag) (c : Cell) {s : State} (h : PortsOk s) : PortsOk (restartDown tag c s) := by
  unfold restartDown
  refine portsOk_startDown tag c (portsOk_of_leaves h ?_ ?_)
  all_goals
    simp only [setCurrent_leaves]
    split <;> rfl

section Between

variable {between : State → State} (hb : ∀ {s}, ReceiversOk s → PortsOk s → PortsOk (between s)) {s : State} (hr : ReceiversOk s)
  (h : PortsOk s)
include hb hr h

/-- A cell of an OPEN message is offered to an UP port; what comes before the conversion of a refused LAST may close the port, and the
conversion is then dropped (R115 to R117). -/
theorem portsOk_continueDown (tag : Tag) {n : Trib} (hup : s.ports.isUp n = true) (channel : Channel) (next : Index) (c : Cell) :
    PortsOk (continueDown between tag n channel next c s) := by
  unfold continueDown
  dsimp only
  split
  · have gap : PortsOk (giveUpDown tag n channel next (countTrunk .bumpContinuation s)) := portsOk_of_leaves h rfl rfl
    split
    · exact portsOk_closeGivenUp tag gap
    · exact gap
  · have offered := portsOk_offerDown h hup { c with tag := channel.setWidth 10 }
    split
    · exact portsOk_of_leaves offered rfl rfl
    · have refused := portsOk_giveUpDown tag n channel next offered
      split
      · exact portsOk_closeGivenUp tag (hb (receiversOk_of_leaves hr (by simp) (by simp) (by simp)) refused)
      · exact refused

theorem portsOk_channelArrival (hc : ChannelsOk s) (c : Cell) : PortsOk (channelArrival between c s) := by
  have up {n : Trib} {channel : Channel} {next : Index} (ho : (s.channels.get c.tag.toNat).current = .opened n channel next) :
      s.ports.isUp n = true :=
    hc.2 c.tag.toNat n (by simp [ho, Current.openFor])
  unfold channelArrival
  split
  case h_1 | h_2 => exact portsOk_startDown c.tag c h
  case h_3 | h_4 => exact portsOk_of_leaves h rfl rfl
  case h_5 ho _ | h_6 ho _ => exact portsOk_continueDown hb hr h _ (up ho) _ _ c
  case h_7 | h_8 | h_11 | h_12 | h_15 | h_16 => exact portsOk_restartDown c.tag c h
  case h_9 | h_13 => exact h
  case h_10 | h_14 => exact portsOk_closeGivenUp c.tag h

/-- A cell the trunk receiver hands on (R107). -/
theorem portsOk_trunkArrival (hc : ChannelsOk s) (c : Cell) : PortsOk (trunkArrival between c s) := by
  unfold trunkArrival
  split
  · split
    · exact portsOk_channelArrival hb hr h hc c
    · unfold malformedDown
      dsimp only
      split <;> exact portsOk_of_leaves h rfl rfl
  · split
    · exact portsOk_of_leaves h (by simp) (by simp)
    · split
      · exact h
      · exact portsOk_of_leaves h rfl rfl

end Between

/-! ## Header tests and signals -/

/-- What vouches for a cell that a link hands on: the channel map for a cell from the trunk, the port's record of the receiver for one from
a tributary. -/
def HandsOnTo (l : Link) (s : State) : Prop :=
  match l with
  | .trunk => ChannelsOk s
  | .tributary n => s.ports.rxLocked[n] = true

theorem handsOnTo_of_leaves {l : Link} {s t : State} (h : HandsOnTo l s) (hchannels : t.channels = s.channels)
    (hports : t.ports = s.ports) : HandsOnTo l t := by
  cases l with
  | trunk => simpa only [HandsOnTo, ChannelsOk, hchannels, hports] using h
  | tributary n => simpa only [HandsOnTo, hports] using h

theorem portsOk_handOn {between : State → State} (hb : ∀ {s}, ReceiversOk s → PortsOk s → PortsOk (between s)) {l : Link} {s : State}
    (hr : ReceiversOk s) (h : PortsOk s) (hl : HandsOnTo l s) (c : Cell) : PortsOk (handOn between l c s) := by
  unfold handOn
  split
  · exact h
  · cases l with
    | trunk => exact portsOk_trunkArrival hb hr h hl c
    | tributary n => exact portsOk_tribArrival h hl c

theorem portsOk_setReceiver (l : Link) (r : Receiver) {s : State} (h : PortsOk s) : PortsOk (setReceiver l r s) :=
  portsOk_of_leaves h (by simp) (by simp)

theorem portsOk_setSignal (l : Link) (b : Bool) {s : State} (h : PortsOk s) : PortsOk (setSignal l b s) :=
  portsOk_of_leaves h (by simp) (by simp)

theorem portsOk_reportLockLost (turn : Turn) (l : Link) {s : State} (h : PortsOk s) : PortsOk (reportLockLost turn l s) := by
  cases l with
  | trunk => exact portsOk_of_leaves h (by simp [reportLockLost]) (by simp [reportLockLost])
  | tributary n => exact portsOk_portLockLost turn n h

theorem portsOk_countBadHeader (l : Link) {s : State} (h : PortsOk s) : PortsOk (countBadHeader l s) := by
  rw [countBadHeader_eq]
  exact portsOk_of_leaves h rfl rfl

theorem portsOk_seekTest (l : Link) (bytes : List Byte) {s : State} (h : PortsOk s) : PortsOk (seekTest l bytes s) := by
  unfold seekTest
  dsimp only
  split
  · split <;> exact portsOk_setReceiver l _ h
  · exact h

theorem portsOk_recordLocked (l : Link) {s : State} (h : PortsOk s) : PortsOk (recordLocked l s) := by
  cases l with
  | trunk => exact h
  | tributary n => exact portsOk_setRxLocked_true h

/-- An entry to LOCKED is on record before the first cell is handed on (R12, R36). -/
theorem handsOnTo_recordLocked {l : Link} {s : State} (hc : l = .trunk → ChannelsOk s) : HandsOnTo l (recordLocked l s) := by
  cases l with
  | trunk => exact hc rfl
  | tributary n => exact get_set_same s.ports.rxLocked n true

theorem portsOk_enterLocked (turn : Turn) {l : Link} (bytes : List Byte) {s : State} (hr : ReceiversOk s) (h : PortsOk s)
    (hc : l = .trunk → ChannelsOk s) (hsignal : hasSignal l s = true) : PortsOk (enterLocked turn l bytes s) := by
  have receivers {p : Nat} : ReceiversOk (recordLocked l (setReceiver l { delineation := .locked, count := 0, position := p } s)) := by
    rw [recordLocked_eq]
    exact receiversOk_recordLock (otherLinksOk_of_receiversOk hr l) (Nat.zero_le 4) (by simp [hsignal]) rfl
  have ports {r : Receiver} : PortsOk (recordLocked l (setReceiver l r s)) := portsOk_recordLocked l (portsOk_setReceiver l r h)
  have vouched {r : Receiver} : HandsOnTo l (recordLocked l (setReceiver l r s)) := handsOnTo_recordLocked fun hl => by
    subst hl
    exact hc rfl
  have posted {t : State} (b a : Ports) (ht : PortsOk t) : PortsOk (postLocked l b a t) := portsOk_of_leaves ht (by simp) (by simp)
  have postedReceivers {t : State} (b a : Ports) (ht : ReceiversOk t) : ReceiversOk (postLocked l b a t) :=
    receiversOk_of_leaves ht (by simp) (by simp) (by simp)
  have postedVouched {t : State} (b a : Ports) (ht : HandsOnTo l t) : HandsOnTo l (postLocked l b a t) :=
    handsOnTo_of_leaves ht (by simp) (by simp)
  unfold enterLocked
  exact postBeside_cases
    (portsOk_handOn (fun _ ht => ht) (postedReceivers _ _ receivers) (posted _ _ ports) (postedVouched _ _ vouched) _)
    (posted _ _ (portsOk_handOn (fun _ ht => ht) receivers ports vouched _))

theorem portsOk_confirmTest (turn : Turn) {l : Link} (bytes : List Byte) {s : State} (hr : ReceiversOk s) (h : PortsOk s)
    (hc : l = .trunk → ChannelsOk s) : PortsOk (confirmTest turn l bytes s) := by
  unfold confirmTest
  split
  · next ht =>
    obtain ⟨hsignal, -⟩ := testing_iff.mp (Bool.and_eq_true _ _ ▸ ht).1
    dsimp only
    split
    · split
      · exact portsOk_setReceiver l _ h
      · exact portsOk_enterLocked turn bytes hr h hc hsignal
    · exact portsOk_setReceiver l _ h
  · exact h

theorem portsOk_lockedTestWith {between : State → State} (hb : ∀ {s}, ReceiversOk s → PortsOk s → PortsOk (between s)) (turn : Turn)
    {l : Link} (bytes : List Byte) {s : State} (hr : ReceiversOk s) (h : PortsOk s) (hc : l = .trunk → ChannelsOk s) :
    PortsOk (lockedTestWith between turn l bytes s) := by
  unfold lockedTestWith
  split
  · next ht =>
    obtain ⟨hsignal, hlocked⟩ := testing_iff.mp (Bool.and_eq_true _ _ ▸ ht).1
    have vouched : HandsOnTo l s := by
      cases l with
      | trunk => exact hc rfl
      | tributary n => exact (hr.2.2 n).trans (by simp [hlocked])
    have counted : countOk { delineation := .locked, count := 0, position := (receiver l s).position + Config.cellBytes } := Nat.zero_le 4
    dsimp only
    split
    · exact portsOk_handOn hb (receiversOk_tested hr hsignal counted (by simp [hlocked])) (portsOk_setReceiver l _ h)
        (handsOnTo_of_leaves vouched (by simp) (by simp)) _
    · split
      · exact portsOk_countBadHeader l (portsOk_setReceiver l _ h)
      · exact portsOk_reportLockLost turn l (portsOk_countBadHeader l (portsOk_setReceiver l _ h))
  · exact h

theorem portsOk_signalLossEvent (turn : Turn) (l : Link) {s : State} (h : PortsOk s) : PortsOk (signalLossEvent turn l s) := by
  have sought := portsOk_setReceiver l (seekAt 0) (portsOk_setSignal l false h)
  unfold signalLossEvent
  dsimp only
  split
  · exact portsOk_setSignal l false h
  · split
    · exact portsOk_reportLockLost turn l sought
    · exact sought

theorem portsOk_signalReturnEvent (l : Link) {s : State} (h : PortsOk s) : PortsOk (signalReturnEvent l s) := by
  unfold signalReturnEvent
  split
  · exact h
  · split
    · exact portsOk_setSignal l true h
    · exact portsOk_setReceiver l _ (portsOk_setSignal l true h)

/-! ## Slots and cell times -/

/-- A slot takes the head cell of one uplink queue from the store, or nothing (R23, R84 to R86). -/
def TakesAtMostOne (s t : State) : Prop :=
  t.store = s.store
    ∨ ∃ (n : Trib) (c : Cell) (rest : List Cell), s.store.up[n].cells = c :: rest
      ∧ t.store = { s.store with free := s.store.free + 1, up := s.store.up.set n (s.store.up[n].afterTake c rest) }

theorem takesAtMostOne_congr {s s' t t' : State} (h : TakesAtMostOne s t) (hs : s'.store = s.store) (ht : t'.store = t.store) :
    TakesAtMostOne s' t' := by
  simpa only [TakesAtMostOne, hs, ht] using h

theorem takesAtMostOne_takeUp {n : Trib} {c : Cell} {s t : State} (h : takeUp n s = some (c, t)) : TakesAtMostOne s t := by
  obtain ⟨rest, hcells, rfl⟩ := takeUp_eq_some h
  exact .inr ⟨n, c, rest, hcells, rfl⟩

theorem afterSend_store (n : Trib) (c : Cell) (s : State) : (afterSend n c s).store = s.store := by
  rw [afterSend_eq]

theorem decideSpare_takes (s : State) : TakesAtMostOne s (decideSpare s).state := by
  unfold decideSpare
  split
  · exact .inl rfl
  · dsimp only
    split
    · exact .inl rfl
    · split
      · next htake => exact takesAtMostOne_congr (takesAtMostOne_takeUp htake) rfl (afterSend_store _ _ _)
      · exact .inl rfl

theorem decideSlot_takes (o : Owner) (s : State) : TakesAtMostOne s (decideSlot o s).state := by
  cases o with
  | trib n =>
    simp only [decideSlot, decideOwn]
    split
    · exact .inl rfl
    · split
      · next htake => exact takesAtMostOne_congr (takesAtMostOne_takeUp htake) rfl (afterSend_store _ _ _)
      · exact decideSpare_takes s
  | management =>
    simp only [decideSlot, decideManagement]
    split
    · exact .inl rfl
    · split
      · exact .inl rfl
      · exact decideSpare_takes s
  | openSlot => exact decideSpare_takes s

theorem carrySlot_store (length : Nat) (d : Decision) : (carrySlot length d).store = d.state.store := by
  unfold carrySlot advanceSlot
  split <;> simp [surveyTakesBoundary_leaves]

theorem settleNotices_store (s : State) : (settleNotices s).store = s.store := by
  unfold settleNotices
  split
  · rfl
  · simp [noticesTakeBoundary_leaves]

theorem slotEvent_takes (s : State) : TakesAtMostOne s (slotEvent s) := by
  unfold slotEvent
  split
  · exact .inl rfl
  · exact takesAtMostOne_congr (decideSlot_takes _ _) (settleNotices_store s).symm (carrySlot_store _ _)

theorem portsOk_slotEvent {s : State} (h : PortsOk s) : PortsOk (slotEvent s) := by
  obtain ⟨-, -, hports⟩ := slotEvent_leaves s
  obtain hstore | ⟨n, c, rest, hcells, hstore⟩ := slotEvent_takes s
  · exact portsOk_of_leaves h hstore hports
  · exact portsOk_of_takenUp h hports hcells hstore

/-- A cell time takes from an UP port, if it takes at all (R48). -/
theorem portsOk_cellTimeEvent (n : Trib) {s : State} (h : PortsOk s) : PortsOk (cellTimeEvent n s) := by
  unfold cellTimeEvent
  split
  · next hup =>
    split
    · next c _ htake =>
      obtain ⟨rest, -, rfl⟩ := takeDown_eq_some htake
      have moved : MovedAt n s (setTribTx n c (countDown n .bumpSent (freeBuffers 1 (setDown n rest s)))) :=
        movedAt_of_down rfl rfl rfl
      exact moved.portsOk_of_up h hup
    · exact portsOk_of_leaves h rfl rfl
  · exact portsOk_of_leaves h rfl rfl

/-! ## Executions -/

theorem portsOk_complete (c : TakenCommand) (r : Result) (d : List Byte) {s : State} (h : PortsOk s) : PortsOk (complete c r d s) :=
  portsOk_of_leaves h rfl rfl

theorem portsOk_runCommand {k : CommandKind} {work : TakenCommand → State → State} (hw : ∀ c {s}, PortsOk s → PortsOk (work c s))
    {s : State} (h : PortsOk s) : PortsOk (runCommand k work s) :=
  runCommand_cases h (fun c _ _ => portsOk_complete c _ _ (portsOk_of_leaves h rfl rfl))
    fun c _ _ => hw c (portsOk_of_leaves h rfl rfl)

theorem portsOk_of_carriage {s t : State} (h : PortsOk s) (hc : carriage t = carriage s) : PortsOk t := by
  simp only [carriage, Prod.mk.injEq] at hc
  obtain ⟨-, -, hstore, hports, -⟩ := hc
  exact portsOk_of_leaves h hstore hports

theorem portsOk_workRestart (c : TakenCommand) (s : State) : PortsOk (workRestart c s) :=
  portsOk_complete c _ _ (portsOk_restartBlocks c.seq s)

theorem portsOk_workWritePort (turn : Turn) (c : TakenCommand) {s : State} (h : PortsOk s) : PortsOk (workWritePort turn c s) := by
  unfold workWritePort
  dsimp only
  split
  · split
    · exact portsOk_complete c _ _ (portsOk_applyPortEntry turn _ _ h)
    · exact portsOk_complete c _ _ h
  · exact portsOk_complete c _ _ h

theorem portsOk_workFlushPort (c : TakenCommand) {s : State} (h : PortsOk s) : PortsOk (workFlushPort c s) := by
  unfold workFlushPort
  dsimp only
  split
  · next n _ =>
    split
    · exact portsOk_complete c _ _ (portsOk_flushUplink n h)
    · split
      · exact portsOk_complete c _ _ (portsOk_closeDownlink n h)
      · split
        · exact portsOk_complete c _ _ (portsOk_closeDownlink n (portsOk_flushUplink n h))
        · exact portsOk_complete c _ _ h
  · exact portsOk_complete c _ _ h

/-! ## Every step -/

/-- No event between two offers is a cell from the trunk, so the receivers alone vouch for it (R22, R116). -/
theorem portsOk_runStoreEvent (e : StoreEvent) {s : State} (hr : ReceiversOk s) (h : PortsOk s) : PortsOk (runStoreEvent e s) := by
  cases e with
  | slot => exact portsOk_slotEvent h
  | cellTime n => exact portsOk_cellTimeEvent n h
  | headerTest n bytes turn =>
    simp only [runStoreEvent]
    split
    · exact portsOk_confirmTest turn bytes hr h nofun
    · exact portsOk_lockedTestWith (fun _ ht => ht) turn bytes hr h nofun
  | signalLoss n turn => exact portsOk_signalLossEvent turn _ h
  | writePort turn => exact portsOk_runCommand (fun c _ => portsOk_workWritePort turn c) h
  | flushPort => exact portsOk_runCommand (fun c _ => portsOk_workFlushPort c) h

theorem portsOk_runStoreEvents (events : List StoreEvent) :
    ∀ {s : State}, ReceiversOk s → PortsOk s → PortsOk (runStoreEvents events s) := by
  induction events with
  | nil => exact fun _ h => h
  | cons e rest ih => exact fun hr h => ih (runStoreEvent_keeps e hr) (portsOk_runStoreEvent e hr h)

/-- An event of the running part that keeps the law of ports keeps it as a command. -/
theorem portsOk_whileRunning {event : State → State} {s : State} (h : PortsOk s) (he : PortsOk (event s)) :
    PortsOk (whileRunning s event) :=
  whileRunning_cases h fun _ => he

/-- An event that leaves the cell store and the ports. -/
theorem portsOk_event {event : State → State} (hstore : ∀ s, (event s).store = s.store) (hports : ∀ s, (event s).ports = s.ports)
    {s : State} (h : PortsOk s) : PortsOk (whileRunning s event) :=
  portsOk_whileRunning h (portsOk_of_leaves h (hstore s) (hports s))

/-- A command whose work leaves the blocks that carry cells. -/
theorem portsOk_command {k : CommandKind} {work : TakenCommand → State → State} (hw : ∀ c s, carriage (work c s) = carriage s)
    {s : State} (h : PortsOk s) : PortsOk (whileRunning s (runCommand k work)) :=
  portsOk_whileRunning h (portsOk_runCommand (fun c _ h => portsOk_of_carriage h (hw c _)) h)

theorem exec_keeps_ports (i : Instr) {s t : State} (hr : ReceiversOk s) (hc : ChannelsOk s) (h : PortsOk s) (ht : exec i s = .next t) :
    PortsOk t := by
  cases i <;> injection ht with ht <;> subst ht
  case powerOn => exact portsOk_of_leaves h rfl rfl
  case resetN =>
    unfold resetNEvent
    dsimp only
    split <;> exact portsOk_of_leaves h rfl rfl
  case hardResetEnd =>
    unfold hardResetEndEvent
    split
    · exact portsOk_afterHardReset _ _ _ _
    · exact h
  case signalLoss l turn => exact portsOk_signalLossEvent turn l h
  case signalReturn l => exact portsOk_signalReturnEvent l h
  case seekHeaderTest l bytes => exact portsOk_whileRunning h (portsOk_seekTest l bytes h)
  case confirmHeaderTest l bytes turn => exact portsOk_whileRunning h (portsOk_confirmTest turn bytes hr h fun _ => hc)
  case lockedHeaderTest l bytes between turn =>
    exact portsOk_whileRunning h (portsOk_lockedTestWith (portsOk_runStoreEvents between) turn bytes hr h fun _ => hc)
  case slot => exact portsOk_whileRunning h (portsOk_slotEvent h)
  case tributaryCellTime n => exact portsOk_whileRunning h (portsOk_cellTimeEvent n h)
  case cycleBoundary order => exact portsOk_event (boundaryEvent_store order) (fun s => (boundaryEvent_leaves order s).2.2) h
  case planReverted => exact portsOk_event revertEvent_store (fun s => (revertEvent_leaves s).2.2) h
  case noticeRepeatExpiry => exact portsOk_event expiryEvent_store (fun s => (expiryEvent_leaves s).2.2) h
  case surveyDone => exact portsOk_event surveyDoneEvent_store (fun s => (surveyDoneEvent_leaves s).2.2) h
  case unknownKind => exact portsOk_whileRunning h (portsOk_of_carriage h (runUnknown_keeps (fun _ _ => rfl) _))
  case restart => exact portsOk_whileRunning h (portsOk_runCommand (fun c _ _ => portsOk_workRestart c _) h)
  case writePort turn => exact portsOk_whileRunning h (portsOk_runCommand (fun c _ => portsOk_workWritePort turn c) h)
  case flushPort => exact portsOk_whileRunning h (portsOk_runCommand (fun c _ => portsOk_workFlushPort c) h)
  case echo => exact portsOk_command carriage_echo h
  case identify => exact portsOk_command carriage_identify h
  case readStatus => exact portsOk_command carriage_readStatus h
  case selectEditPlan => exact portsOk_command carriage_selectEditPlan h
  case writeSlots => exact portsOk_command carriage_writeSlots h
  case setCycleLength => exact portsOk_command carriage_setCycleLength h
  case writeTributaryEntry => exact portsOk_command carriage_writeTributaryEntry h
  case setPlanOptions => exact portsOk_command carriage_setPlanOptions h
  case copyPlan => exact portsOk_command carriage_copyPlan h
  case readSlots => exact portsOk_command carriage_readSlots h
  case readTributaryEntry => exact portsOk_command carriage_readTributaryEntry h
  case readPlanOptions => exact portsOk_command carriage_readPlanOptions h
  case switchPlan => exact portsOk_command carriage_switchPlan h
  case confirmPlan => exact portsOk_command carriage_confirmPlan h
  case readPort => exact portsOk_command carriage_readPort h
  case writeChannels => exact portsOk_command carriage_writeChannels h
  case readChannel => exact portsOk_command carriage_readChannel h
  case readCounters => exact portsOk_command carriage_readCounters h
  case clearCounters => exact portsOk_command carriage_clearCounters h
  case startSurvey => exact portsOk_command carriage_startSurvey h
  case stopSurvey => exact portsOk_command carriage_stopSurvey h
  case readSurvey => exact portsOk_command carriage_readSurvey h
  case ackNotice => exact portsOk_command carriage_ackNotice h
  case setNoticeOptions => exact portsOk_command carriage_setNoticeOptions h

/-- A step idles on an empty queue, or runs the command at its front on the state with the queue's rest. -/
theorem step_cases {s t : State} (h : step s = .next t) :
    t = s ∨ ∃ i rest, s.pending = i :: rest ∧ exec i { s with pending := rest } = .next t := by
  unfold step at h
  split at h
  · cases h
    exact .inl rfl
  · next i rest hpending => exact .inr ⟨i, rest, hpending, h⟩

/-- Settles O6: a port is emptied by the step that closes it, and no step brings a cell or a message to a port that is not UP. -/
theorem stepKeepsClosedPortsEmpty : Obligations.StepKeepsClosedPortsEmpty := by
  unfold Obligations.StepKeepsClosedPortsEmpty
  intro s t hr hc h ht
  obtain rfl | ⟨i, rest, -, hexec⟩ := step_cases ht
  · exact h
  · have receivers : ReceiversOk { s with pending := rest } := receiversOk_of_leaves hr rfl rfl rfl
    have ports : PortsOk { s with pending := rest } := portsOk_of_leaves h rfl rfl
    exact exec_keeps_ports i receivers hc ports hexec

end Sys2Proof.Proofs.TributaryPorts
end

section
/-! PROOFS. READ PORT and READ CHANNEL: their data byte by byte, and the range of their operands (R49, R124). -/

namespace Sys2Proof.Proofs.TributaryPorts

open Sys2Proof.Machine Sys2Proof.Laws Sys2Proof.Claims Sys2Proof.Proofs.CellStore

/-! ## READ PORT (R49) -/

section ReadPort

variable {c : TakenCommand} {s : State}

theorem workReadPort_of_port {n : Trib} (h : byteAt c.operands 0 = byteOf n.val) :
    workReadPort c s = complete c .ok (portData n s) s := by
  simp only [workReadPort, h, tribOf_byteOf]

theorem workReadPort_of_range (h : 7 < (byteAt c.operands 0).toNat) : workReadPort c s = complete c .range [] s := by
  simp only [workReadPort, tribOf_of_gt h]
  rfl

/-- The eleven bytes in the words of the manual: the state codes spelled out (R49, section 10.4). -/
theorem portData_eq (n : Trib) (s : State) :
    portData n s =
      [match s.ports.state n with | .disabled => 0 | .down => 1 | .up => 2, flagByte s.ports.table[n].enable,
        byteOf s.ports.table[n].upFloor, byteOf s.ports.table[n].upCeiling, byteOf s.ports.table[n].downFloor,
        byteOf s.ports.table[n].downCeiling, byteOf s.store.up[n].cells.length, byteOf s.store.down[n].length,
        match s.ports.ingress[n] with | .idle => 0 | .opened _ _ _ _ _ => 1 | .discarding => 2,
        byteOf s.store.up[n].complete, flagByte s.store.up[n].head.isSome] := by
  have hstate : byteOf (s.ports.state n).code = match s.ports.state n with | .disabled => 0 | .down => 1 | .up => 2 := by
    cases s.ports.state n <;> rfl
  have hingress : s.ports.ingress[n].code = match s.ports.ingress[n] with | .idle => 0 | .opened _ _ _ _ _ => 1 | .discarding => 2 := by
    cases s.ports.ingress[n] <;> rfl
  rw [portData, hstate, hingress]

end ReadPort

/-! ## READ CHANNEL (R124) -/

section ReadChannel

variable {c : TakenCommand} {s : State}

theorem workReadChannel_of_tag (h : wordAt c.operands 0 < 1008) :
    workReadChannel c s = complete c .ok (channelData s.plans.run (s.channels.get (wordAt c.operands 0))) s :=
  if_pos h

theorem workReadChannel_of_range (h : 1008 ≤ wordAt c.operands 0) : workReadChannel c s = complete c .range [] s :=
  if_neg (Nat.not_lt.mpr h)

end ReadChannel

theorem maskCode_eq (m : PlanMask) : m.code = match m with | .none => 0 | .p0 => 1 | .p1 => 2 | .both => 3 := by
  cases m <;> rfl

/-- The five bytes of the current part, 0xFF where an item is absent (R111, R124). -/
theorem currentBytes_eq (e : Current) :
    [e.code, presentByte (e.latchedTrib.map fun n => n.val), presentByte (e.latchedChannel.map fun ch => ch.toNat),
        presentByte (e.nextIndex.map fun i => i.toNat), flagByte e.delivered] =
      match e with
      | .idle => [0, 0xFF, 0xFF, 0xFF, 0]
      | .opened n channel next => [1, byteOf n.val, byteOf channel.toNat, byteOf next.toNat, 1]
      | .discarding n channel next d => [2, byteOf n.val, byteOf channel.toNat, byteOf next.toNat, flagByte d]
      | .discardingInactive => [2, 0xFF, 0xFF, 0xFF, 0] := by
  cases e <;> rfl

/-- Settles O53: in range each command completes with the bytes of its data, out of range with none. -/
theorem portAndChannelReadsReport : Obligations.PortAndChannelReadsReport := by
  unfold Obligations.PortAndChannelReadsReport
  intro c rest s
  constructor
  · intro hready
    have hexec : exec .readPort s = .next (workReadPort c (beginCommand rest s)) := exec_of_ready hready rfl
    constructor
    · intro n hn
      rw [workReadPort_of_port hn, portData_eq] at hexec
      exact answers_complete hexec rfl
    · intro hrange
      rw [workReadPort_of_range hrange] at hexec
      exact answers_complete hexec rfl
  · intro hready
    have hexec : exec .readChannel s = .next (workReadChannel c (beginCommand rest s)) := exec_of_ready hready rfl
    constructor
    · rintro e htag rfl
      rw [workReadChannel_of_tag htag] at hexec
      exact ⟨_, answers_complete hexec rfl, rfl, maskCode_eq _, rfl, rfl, rfl, currentBytes_eq _⟩
    · intro hrange
      rw [workReadChannel_of_range hrange] at hexec
      exact answers_complete hexec rfl

end Sys2Proof.Proofs.TributaryPorts
end

section
/-! PROOFS. The part of the state that the law of plans reads, and that arrivals, header tests, signals, slots and cell times leave of it all
but the slot position. -/

namespace Sys2Proof.Proofs.Plans

open Sys2Proof.Machine Sys2Proof.Safety Sys2Proof.Laws Sys2Proof.Proofs.TributaryPorts

/-! ## The view of the plans -/

/-- What the law of plans reads: the plan store, the command in progress and the slot position. -/
structure PlanView where
  plans : PlanStore
  inProgress : Option TakenCommand
  position : Nat

def planView (s : State) : PlanView := { plans := s.plans, inProgress := s.engine.inProgress, position := s.scheduler.position }

theorem planView_of_leaves {s t : State} (hplans : t.plans = s.plans) (hengine : t.engine = s.engine)
    (hscheduler : t.scheduler = s.scheduler) : planView t = planView s := by
  simp only [planView, hplans, hengine, hscheduler]

theorem planView_of_position {s t : State} (hplans : t.plans = s.plans) (hengine : t.engine = s.engine)
    (hposition : t.scheduler.position = s.scheduler.position) : planView t = planView s := by
  simp only [planView, hplans, hengine, hposition]

@[simp] theorem planView_post (kind : NoticeKind) (subject detail : Byte) (s : State) : planView (post kind subject detail s) = planView s :=
  planView_of_leaves (by simp) (by simp) (by simp)

/-- The start of an execution leaves the view; the command enters progress only where its work says so (R133). -/
@[simp] theorem planView_beginCommand (rest : List TakenCommand) (s : State) : planView (beginCommand rest s) = planView s := by
  simp [planView]

/-- A completion frees the engine and leaves the plans (R134). -/
@[simp] theorem planView_complete (c : TakenCommand) (r : Result) (d : List Byte) (s : State) :
    planView (complete c r d s) = { planView s with inProgress := none } := rfl

/-! ## Plans that stand -/

/-- The plan store and the command in progress stand, and the position stays one of the running plan's. -/
structure PlansStand (v w : PlanView) : Prop where
  plans : w.plans = v.plans
  inProgress : w.inProgress = v.inProgress
  position : v.position < v.plans.running.length → w.position < v.plans.running.length

theorem PlansStand.of_eq {v w : PlanView} (h : w = v) : PlansStand v w := by
  subst h
  exact ⟨rfl, rfl, id⟩

theorem PlansStand.trans {u v w : PlanView} (h : PlansStand u v) (k : PlansStand v w) : PlansStand u w where
  plans := k.plans.trans h.plans
  inProgress := k.inProgress.trans h.inProgress
  position hu := by
    have hw := k.position
    rw [h.plans] at hw
    exact hw (h.position hu)

/-- An event at which the plans stand. -/
def Stands (event : State → State) : Prop := ∀ s, PlansStand (planView s) (planView (event s))

theorem stands_of_view {event : State → State} (h : ∀ s, planView (event s) = planView s) : Stands event := fun s => .of_eq (h s)

/-! ## Cuts and arrivals from a tributary -/

@[simp] theorem planView_cutOpen (n : Trib) (cause : CutCause) (s : State) : planView (cutOpen n cause s) = planView s :=
  planView_of_position (by simp) (by simp) (by simp [cutOpen_scheduler])

@[simp] theorem planView_cutAll (n : Trib) (cause : CutCause) (s : State) : planView (cutAll n cause s) = planView s :=
  planView_of_position (by simp) (by simp) (by simp [cutAll_scheduler])

@[simp] theorem planView_tribArrival (n : Trib) (c : Cell) (s : State) : planView (tribArrival n c s) = planView s :=
  tribArrival_keeps (inv := fun t => planView t = planView s) (fun _ _ h => h) (fun _ _ h => by simp [h])
    (fun _ _ h => (planView_of_leaves (by simp) (by simp) (by simp)).trans h) (fun _ _ h => h) c rfl

@[simp] theorem planView_endIngress (n : Trib) (s : State) : planView (endIngress n s) = planView s := by
  unfold endIngress
  split
  · exact planView_cutOpen n _ s
  · rfl
  · rfl

@[simp] theorem planView_flushUplink (n : Trib) (s : State) : planView (flushUplink n s) = planView s := by
  unfold flushUplink
  dsimp only
  split
  · exact planView_cutAll n _ s
  · exact planView_cutAll n _ s
  · exact planView_cutAll n _ s

@[simp] theorem planView_closeDownlink (n : Trib) (s : State) : planView (closeDownlink n s) = planView s := rfl

@[simp] theorem planView_disableTraffic (n : Trib) (s : State) : planView (disableTraffic n s) = planView s :=
  (planView_closeDownlink n _).trans (planView_cutAll n _ s)

@[simp] theorem planView_postStateChange (n : Trib) (b a : PortState) (s : State) : planView (postStateChange n b a s) = planView s :=
  planView_of_leaves (by simp) (by simp) (by simp)

theorem planView_portLockLost (turn : Turn) (n : Trib) (s : State) : planView (portLockLost turn n s) = planView s := by
  unfold portLockLost
  dsimp only
  split
  · exact postBeside_leaves (by simp) (by simp) _
  · rfl

@[simp] theorem planView_applyPortEntry (turn : Turn) (n : Trib) (e : PortEntry) (s : State) :
    planView (applyPortEntry turn n e s) = planView s := by
  unfold applyPortEntry
  dsimp only
  split
  · exact postBeside_leaves (by simp) (by simp) _
  · exact postBeside_leaves (by simp) (by simp) _

/-! ## Arrivals from the trunk -/

/-- A command taken, a duplicate and an overrun leave the command in progress (R127 to R130). -/
theorem planView_managementArrival (c : Cell) (s : State) : planView (managementArrival c s) = planView s := by
  have inProgress : (managementArrival c s).engine.inProgress = s.engine.inProgress := by
    unfold managementArrival takeDuplicate takeCommand
    repeat' split
    all_goals simp
  simp only [planView, inProgress, managementArrival_leaves]

theorem stands_continueDown {between : State → State} (hb : Stands between) (tag : Tag) (n : Trib) (channel : Channel) (next : Index)
    (c : Cell) : Stands (continueDown between tag n channel next c) := by
  intro s
  unfold continueDown
  dsimp only
  split
  · split
    · exact .of_eq (planView_of_leaves (by simp) (by simp) (by simp))
    · exact .of_eq (planView_of_leaves (by simp) (by simp) (by simp))
  · split
    · exact .of_eq (planView_of_leaves (by simp) (by simp) (by simp))
    · split
      · have refused := hb (giveUpDown tag n channel next (offerDown n { c with tag := channel.setWidth 10 } s))
        rw [planView_of_leaves (t := giveUpDown tag n channel next _) (s := s) (by simp) (by simp) (by simp)] at refused
        exact refused.trans (.of_eq (planView_of_leaves (by simp) (by simp) (by simp)))
      · exact .of_eq (planView_of_leaves (by simp) (by simp) (by simp))

theorem stands_channelArrival {between : State → State} (hb : Stands between) (c : Cell) : Stands (channelArrival between c) := by
  intro s
  unfold channelArrival
  split
  case h_5 | h_6 => exact stands_continueDown hb _ _ _ _ _ s
  all_goals exact .of_eq (planView_of_leaves (by simp) (by simp) (by simp))

/-- An arrival from the trunk reaches the plans by nothing but what the store takes between its two offers (R107, R116). -/
theorem stands_trunkArrival {between : State → State} (hb : Stands between) (c : Cell) : Stands (trunkArrival between c) := by
  intro s
  unfold trunkArrival
  split
  · split
    · exact stands_channelArrival hb c s
    · exact .of_eq (planView_of_leaves (by simp) (by simp) (by simp))
  · split
    · exact .of_eq (planView_managementArrival c s)
    · split
      · exact .of_eq rfl
      · exact .of_eq rfl

/-! ## Header tests and signals -/

@[simp] theorem planView_setReceiver (l : Link) (r : Receiver) (s : State) : planView (setReceiver l r s) = planView s :=
  planView_of_leaves (by simp) (by simp) (by simp)

@[simp] theorem planView_setSignal (l : Link) (b : Bool) (s : State) : planView (setSignal l b s) = planView s :=
  planView_of_leaves (by simp) (by simp) (by simp)

@[simp] theorem planView_recordLocked (l : Link) (s : State) : planView (recordLocked l s) = planView s :=
  planView_of_leaves (by simp) (by simp) (by simp)

@[simp] theorem planView_postLocked (l : Link) (before after : Ports) (s : State) : planView (postLocked l before after s) = planView s :=
  planView_of_leaves (by simp) (by simp) (by simp)

@[simp] theorem planView_countBadHeader (l : Link) (s : State) : planView (countBadHeader l s) = planView s := by
  cases l <;> rfl

@[simp] theorem planView_reportLockLost (turn : Turn) (l : Link) (s : State) : planView (reportLockLost turn l s) = planView s := by
  cases l with
  | trunk => exact planView_of_leaves (by simp [reportLockLost]) (by simp [reportLockLost]) (by simp [reportLockLost])
  | tributary n => exact planView_portLockLost turn n s

theorem stands_handOn {between : State → State} (hb : Stands between) (l : Link) (c : Cell) : Stands (handOn between l c) := by
  intro s
  unfold handOn
  split
  · exact .of_eq rfl
  · cases l with
    | trunk => exact stands_trunkArrival hb c s
    | tributary n => exact .of_eq (planView_tribArrival n c s)

theorem planView_seekTest (l : Link) (bytes : List Byte) (s : State) : planView (seekTest l bytes s) = planView s := by
  unfold seekTest
  dsimp only
  split
  · split
    · exact planView_setReceiver l _ s
    · exact planView_setReceiver l _ s
  · rfl

theorem stands_enterLocked (turn : Turn) (l : Link) (bytes : List Byte) : Stands (enterLocked turn l bytes) := by
  intro s
  unfold enterLocked
  have handed := stands_handOn (between := id) (fun _ => .of_eq rfl) l (decodeCell bytes)
  refine postBeside_cases (motive := fun t => PlansStand (planView s) (planView t)) ?_ ?_
  · exact .trans (.of_eq (by simp)) (handed _)
  · rw [planView_postLocked]
    exact .trans (.of_eq (by simp)) (handed _)

theorem stands_confirmTest (turn : Turn) (l : Link) (bytes : List Byte) : Stands (confirmTest turn l bytes) := by
  intro s
  unfold confirmTest
  dsimp only
  split
  · split
    · split
      · exact .of_eq (planView_setReceiver l _ s)
      · exact stands_enterLocked turn l bytes s
    · exact .of_eq (planView_setReceiver l _ s)
  · exact .of_eq rfl

theorem stands_lockedTestWith {between : State → State} (hb : Stands between) (turn : Turn) (l : Link) (bytes : List Byte) :
    Stands (lockedTestWith between turn l bytes) := by
  intro s
  unfold lockedTestWith
  dsimp only
  split
  · split
    · exact .trans (.of_eq (by simp)) (stands_handOn hb l (decodeCell bytes) _)
    · split
      · exact .of_eq (by simp)
      · exact .of_eq (by simp)
  · exact .of_eq rfl

theorem planView_signalLossEvent (turn : Turn) (l : Link) (s : State) : planView (signalLossEvent turn l s) = planView s := by
  unfold signalLossEvent
  dsimp only
  split
  · exact planView_setSignal l _ s
  · split
    · simp
    · simp

theorem planView_signalReturnEvent (l : Link) (s : State) : planView (signalReturnEvent l s) = planView s := by
  unfold signalReturnEvent
  split
  · rfl
  · split
    · exact planView_setSignal l _ s
    · simp

/-! ## Slots and cell times -/

theorem planView_takeUp {n : Trib} {c : Cell} {s t : State} (h : takeUp n s = some (c, t)) : planView t = planView s := by
  obtain ⟨rest, -, rfl⟩ := takeUp_eq_some h
  rfl

@[simp] theorem planView_afterSend (n : Trib) (c : Cell) (s : State) : planView (afterSend n c s) = planView s := by
  unfold afterSend
  split
  · rfl
  · rfl

theorem planView_decideSpare (s : State) : planView (decideSpare s).state = planView s := by
  unfold decideSpare
  split
  · rfl
  · dsimp only
    split
    · rfl
    · split
      · next htake => rw [planView_afterSend, planView_takeUp htake]; rfl
      · rfl

/-- The decision of a slot moves queues, stack and lists, and neither plans nor position (R84 to R86). -/
theorem planView_decideSlot (o : Owner) (s : State) : planView (decideSlot o s).state = planView s := by
  cases o with
  | trib n =>
    unfold decideSlot decideOwn
    dsimp only
    split
    · rfl
    · split
      · next htake => rw [planView_afterSend, planView_takeUp htake]
      · exact planView_decideSpare s
  | management =>
    unfold decideSlot decideManagement
    dsimp only
    split
    · rfl
    · split
      · rfl
      · exact planView_decideSpare s
  | openSlot => exact planView_decideSpare s

@[simp] theorem planView_surveyTakesBoundary (s : State) : planView (surveyTakesBoundary s) = planView s := by
  simp [planView, surveyTakesBoundary_leaves]

@[simp] theorem planView_noticesTakeBoundary (s : State) : planView (noticesTakeBoundary s) = planView s := by
  simp [planView, noticesTakeBoundary_leaves]

@[simp] theorem planView_settleNotices (s : State) : planView (settleNotices s) = planView s := by
  unfold settleNotices
  split
  · rfl
  · exact planView_noticesTakeBoundary s

@[simp] theorem planView_reportSlot (k : SlotKind) (s : State) : planView (reportSlot k s) = planView s :=
  planView_of_leaves (by simp) (by simp) (by simp)

/-- The position moves on only to a slot of the cycle of the length given (R81). -/
theorem stands_advanceSlot (s : State) : PlansStand (planView s) (planView (advanceSlot s.plans.running.length s)) := by
  unfold advanceSlot
  split
  · next hnext => exact ⟨rfl, rfl, fun _ => hnext⟩
  · exact .of_eq rfl

theorem stands_slotEvent : Stands slotEvent := by
  intro s
  unfold slotEvent
  split
  · exact .of_eq rfl
  · dsimp only
    set d := decideSlot ((settleNotices s).plans.running.owner (settleNotices s).scheduler.position) (settleNotices s) with hd
    set u := reportSlot d.kind (surveyTakesBoundary { d.state with links := { d.state.links with trunkTx := .sending d.cell } }) with hu
    have hview : planView u = planView s :=
      calc planView u = planView d.state := by rw [hu, planView_reportSlot, planView_surveyTakesBoundary]; rfl
        _ = planView (settleNotices s) := by rw [hd, planView_decideSlot]
        _ = planView s := planView_settleNotices s
    have hplans : (settleNotices s).plans = u.plans := congrArg PlanView.plans ((planView_settleNotices s).trans hview.symm)
    have hcarry : carrySlot (settleNotices s).plans.running.length d = advanceSlot u.plans.running.length u := by rw [hplans]; rfl
    rw [hcarry, ← hview]
    exact stands_advanceSlot u

theorem planView_cellTimeEvent (n : Trib) (s : State) : planView (cellTimeEvent n s) = planView s := by
  unfold cellTimeEvent
  split
  · split
    · next htake =>
      obtain ⟨rest, -, rfl⟩ := takeDown_eq_some htake
      rfl
    · rfl
  · rfl

end Sys2Proof.Proofs.Plans
end

section
/-! PROOFS. What each execution does to the view of the plans: an answer frees the engine, and only the plan commands and RESTART do more. -/

namespace Sys2Proof.Proofs.Plans

open Sys2Proof.Machine Sys2Proof.Safety Sys2Proof.Laws Sys2Proof.Proofs.CellStore

/-! ## Work that leaves the plans -/

/-- Work that leaves the plan store and the position, and answers its command at once (R134). -/
def AnswersOnly (work : TakenCommand → State → State) : Prop :=
  ∀ c s, planView (work c s) = { planView s with inProgress := none }

@[simp] theorem planView_answerRange (c : TakenCommand) (s : State) :
    planView (answerRange c s) = { planView s with inProgress := none } := rfl

theorem answersOnly_echo : AnswersOnly workEcho := fun _ _ => rfl

theorem answersOnly_identify : AnswersOnly workIdentify := fun _ _ => rfl

theorem answersOnly_readStatus : AnswersOnly workReadStatus := fun _ _ => rfl

theorem answersOnly_readSlots : AnswersOnly workReadSlots := fun c s => by
  unfold workReadSlots
  dsimp only
  repeat' split
  all_goals rfl

theorem answersOnly_readTributaryEntry : AnswersOnly workReadTributaryEntry := fun c s => by
  unfold workReadTributaryEntry
  split <;> rfl

theorem answersOnly_readPlanOptions : AnswersOnly workReadPlanOptions := fun c s => by
  unfold workReadPlanOptions
  split <;> rfl

theorem answersOnly_writePort (turn : Turn) : AnswersOnly (workWritePort turn) := fun c s => by
  unfold workWritePort
  dsimp only
  repeat' split
  all_goals simp

theorem answersOnly_readPort : AnswersOnly workReadPort := fun c s => by
  unfold workReadPort
  split <;> rfl

theorem answersOnly_flushPort : AnswersOnly workFlushPort := fun c s => by
  unfold workFlushPort
  dsimp only
  repeat' split
  all_goals simp

theorem answersOnly_writeChannels : AnswersOnly workWriteChannels := fun c s => by
  unfold workWriteChannels
  dsimp only
  repeat' split
  all_goals rfl

theorem answersOnly_readChannel : AnswersOnly workReadChannel := fun c s => by
  unfold workReadChannel
  dsimp only
  split <;> rfl

theorem answersOnly_readCounters : AnswersOnly workReadCounters := fun c s => by
  unfold workReadCounters
  split <;> rfl

theorem answersOnly_clearCounters : AnswersOnly workClearCounters := fun c s => by
  unfold workClearCounters
  split <;> rfl

theorem answersOnly_startSurvey : AnswersOnly workStartSurvey := fun c s => by
  unfold workStartSurvey
  dsimp only
  split <;> rfl

theorem answersOnly_stopSurvey : AnswersOnly workStopSurvey := fun c s => by
  unfold workStopSurvey
  dsimp only
  repeat' split
  all_goals rfl

theorem answersOnly_readSurvey : AnswersOnly workReadSurvey := fun c s => by
  unfold workReadSurvey
  split <;> rfl

theorem answersOnly_ackNotice : AnswersOnly workAckNotice := fun c s => by
  unfold workAckNotice
  dsimp only
  repeat' split
  all_goals rfl

theorem answersOnly_setNoticeOptions : AnswersOnly workSetNoticeOptions := fun c s => by
  unfold workSetNoticeOptions
  dsimp only
  split <;> rfl

/-- What holds of the view before and of every outcome of the work from an engine that is free holds of the view after an execution: a
command starts only while none is in progress (R133). -/
theorem runCommand_view_cases {motive : PlanView → Prop} {k : CommandKind} {work : TakenCommand → State → State} {s : State}
    (same : motive (planView s))
    (ran : ∀ c u, planView u = planView s → u.engine.inProgress = none → motive (planView (work c u))) :
    motive (planView (runCommand k work s)) := by
  refine runCommand_cases (motive := fun t => motive (planView t)) same (fun c rest hstart => ?_) (fun c rest hstart => ?_)
  · obtain ⟨hidle, -, -⟩ := startable_eq_some.mp hstart
    have hview : planView (complete c .length [] (beginCommand rest s)) = planView s := by simp [planView, hidle]
    rw [hview]
    exact same
  · obtain ⟨hidle, -, -⟩ := startable_eq_some.mp hstart
    exact ran c _ (planView_beginCommand rest s) (by simp [hidle])

theorem answered_of_idle {s : State} (h : s.engine.inProgress = none) : { planView s with inProgress := none } = planView s := by
  simp [planView, h]

theorem planView_runCommand {k : CommandKind} {work : TakenCommand → State → State} (hw : AnswersOnly work) (s : State) :
    planView (runCommand k work s) = planView s :=
  runCommand_view_cases (motive := fun v => v = planView s) rfl fun c u hu hidle => by rw [hw, answered_of_idle hidle, hu]

theorem planView_runUnknown (s : State) : planView (runUnknown s) = planView s := by
  refine runUnknown_cases (motive := fun t => planView t = planView s) rfl fun c rest hstart => ?_
  obtain ⟨hidle, -, -⟩ := startable_eq_some.mp hstart
  simp [planView, hidle]

/-! ## Between two offers (R116) -/

theorem stands_runStoreEvent (e : StoreEvent) : Stands (runStoreEvent e) := by
  intro s
  cases e with
  | slot => exact stands_slotEvent s
  | cellTime n => exact .of_eq (planView_cellTimeEvent n s)
  | headerTest n bytes turn =>
    simp only [runStoreEvent]
    split
    · exact stands_confirmTest turn _ bytes s
    · exact stands_lockedTestWith (fun _ => .of_eq rfl) turn _ bytes s
  | signalLoss n turn => exact .of_eq (planView_signalLossEvent turn _ s)
  | writePort turn => exact .of_eq (planView_runCommand (answersOnly_writePort turn) s)
  | flushPort => exact .of_eq (planView_runCommand answersOnly_flushPort s)

theorem stands_runStoreEvents (events : List StoreEvent) : Stands (runStoreEvents events) := by
  induction events with
  | nil => exact fun s => .of_eq rfl
  | cons e rest ih => exact fun s => (stands_runStoreEvent e s).trans (ih _)

/-! ## What each step does to the plans -/

/-- The plan store after the boundary that ends PENDING (R73). -/
def installed (ps : PlanStore) (target : PlanId) (mode : SwitchMode) : PlanStore :=
  { ps with
    run := target
    switch := match mode with | .firm => .steady | .trial window => .trial window ps.run }

/-- The steps that deliver a boundary to the plan store (R82). -/
def DeliversBoundary (i : Instr) : Prop := i = .planReverted ∨ ∃ order, i = .cycleBoundary order

/-- Every way a step can move the view of the plans (R61, R62, R71 to R76, R79). -/
inductive PlanMove (i : Instr) (v : PlanView) : PlanView → Prop
  | stands {w : PlanView} (stand : PlansStand v w) : PlanMove i v w
  | selected (p : PlanId) : PlanMove i v { v with plans := { v.plans with edit := p } }
  | written (p : Plan) (editable : v.plans.frozen = false) (idle : v.inProgress = none)
      (ranged : (∀ q : PlanId, planOk v.plans.plan[q]) → planOk p) :
      PlanMove i v { v with plans := { v.plans with plan := v.plans.plan.set v.plans.edit p } }
  | ended : PlanMove i v { v with plans := { v.plans with switch := .steady }, inProgress := none }
  | pended (c : TakenCommand) (target : PlanId) (mode : SwitchMode) (other : target ≠ v.plans.run)
      (valid : v.plans.plan[target].fault = none) (window : mode ≠ .trial 0) :
      PlanMove i v { v with plans := { v.plans with switch := .pending target mode }, inProgress := some c }
  | switched (target : PlanId) (mode : SwitchMode) (boundary : DeliversBoundary i) (pending : v.plans.switch = .pending target mode) :
      PlanMove i v { plans := installed v.plans target mode, inProgress := none, position := 0 }
  | counted (remaining : BitVec 16) (fallback : PlanId) (trial : v.plans.switch = .trial remaining fallback)
      (more : 1 < remaining.toNat) :
      PlanMove i v { v with plans := { v.plans with switch := .trial (remaining - 1) fallback }, position := 0 }
  | reverted (remaining : BitVec 16) (fallback : PlanId) (boundary : DeliversBoundary i)
      (trial : v.plans.switch = .trial remaining fallback) :
      PlanMove i v { v with plans := { v.plans with run := fallback, switch := .steady }, position := 0 }
  | booted (s : State) (sound : PlansOk s) (hardReset : i = .hardResetEnd) : PlanMove i v (planView s)

theorem PlanMove.of_eq {i : Instr} {v w : PlanView} (h : w = v) : PlanMove i v w := .stands (.of_eq h)

/-! ## The plan commands -/

theorem planMove_runCommand {i : Instr} {k : CommandKind} {work : TakenCommand → State → State}
    (hw : ∀ c u, u.engine.inProgress = none → PlanMove i (planView u) (planView (work c u))) (s : State) :
    PlanMove i (planView s) (planView (runCommand k work s)) :=
  runCommand_view_cases (.of_eq rfl) fun c u hu hidle => hu ▸ hw c u hidle

section PlanCommands

variable {i : Instr} {c : TakenCommand} {u : State}

/-- An answer of an engine that is free moves nothing. -/
theorem planMove_complete (h : u.engine.inProgress = none) (r : Result) (d : List Byte) :
    PlanMove i (planView u) (planView (complete c r d u)) :=
  .of_eq ((planView_complete c r d u).trans (answered_of_idle h))

theorem planMove_selectEditPlan (h : u.engine.inProgress = none) : PlanMove i (planView u) (planView (workSelectEditPlan c u)) := by
  unfold workSelectEditPlan
  split
  · next p _ =>
    rw [planView_complete, answered_of_idle (by exact h)]
    exact .selected p
  · exact planMove_complete h _ _

/-- A plan write changes the edit plan alone, and only where it may (R61). -/
theorem planMove_writeEditPlan {change : Plan → Plan} (h : u.engine.inProgress = none)
    (hchange : (∀ q : PlanId, planOk u.plans.plan[q]) → planOk (change u.plans.plan[u.plans.edit])) :
    PlanMove i (planView u) (planView (writeEditPlan c change u)) := by
  unfold writeEditPlan
  split
  · exact planMove_complete h _ _
  · next hfrozen =>
    rw [planView_complete, answered_of_idle (by exact h)]
    exact .written _ (Bool.eq_false_iff.mpr hfrozen) h hchange

theorem planMove_writeSlots (h : u.engine.inProgress = none) : PlanMove i (planView u) (planView (workWriteSlots c u)) := by
  unfold workWriteSlots
  dsimp only
  split
  · split
    · exact planMove_writeEditPlan h fun hok => hok u.plans.edit
    · exact planMove_complete h _ _
  · exact planMove_complete h _ _

theorem planMove_setCycleLength (h : u.engine.inProgress = none) : PlanMove i (planView u) (planView (workSetCycleLength c u)) := by
  unfold workSetCycleLength
  dsimp only
  split
  · next hrange =>
    refine planMove_writeEditPlan h fun hok => ?_
    obtain ⟨-, -, hentries⟩ := hok u.plans.edit
    exact ⟨hrange.1, hrange.2, hentries⟩
  · exact planMove_complete h _ _

/-- An entry WRITE TRIBUTARY ENTRY accepts is in range (R56, R65). -/
theorem entryOf_range {operands : List Byte} {e : PlanEntry} (h : entryOf operands = some e) :
    e.tagBase.toNat ≤ 944 ∧ 1 ≤ e.limit ∧ e.limit ≤ 64 := by
  unfold entryOf at h
  dsimp only at h
  split at h
  · split at h
    · next hrange =>
      obtain rfl := Option.some.inj h
      obtain ⟨hbase, hlimit⟩ := hrange
      have : (BitVec.ofNat 10 (wordAt operands 3)).toNat = wordAt operands 3 :=
        (BitVec.toNat_ofNat _ _).trans (Nat.mod_eq_of_lt (by omega))
      exact ⟨by rw [this]; exact hbase, hlimit⟩
    · cases h
  · cases h

theorem planMove_writeTributaryEntry (h : u.engine.inProgress = none) :
    PlanMove i (planView u) (planView (workWriteTributaryEntry c u)) := by
  unfold workWriteTributaryEntry
  split
  · next n entry _ hentry =>
    refine planMove_writeEditPlan h fun hok => ?_
    obtain ⟨hlow, hhigh, hentries⟩ := hok u.plans.edit
    refine ⟨hlow, hhigh, fun m => ?_⟩
    rw [get_set]
    split
    · exact entryOf_range hentry
    · exact hentries m
  · exact planMove_complete h _ _

theorem planMove_setPlanOptions (h : u.engine.inProgress = none) : PlanMove i (planView u) (planView (workSetPlanOptions c u)) := by
  unfold workSetPlanOptions
  split
  · exact planMove_writeEditPlan h fun hok => hok u.plans.edit
  · exact planMove_complete h _ _

theorem planMove_copyPlan (h : u.engine.inProgress = none) : PlanMove i (planView u) (planView (workCopyPlan c u)) :=
  planMove_writeEditPlan h fun hok => hok u.plans.run

/-- A mode SWITCH PLAN accepts has no empty window (R71). -/
theorem modeOf_ne_trial_zero {operands : List Byte} {mode : SwitchMode} (h : modeOf operands = some mode) : mode ≠ .trial 0 := by
  unfold modeOf at h
  dsimp only at h
  split at h
  · obtain rfl := Option.some.inj h
    simp
  · split at h
    · cases h
    · next hwindow =>
      obtain rfl := Option.some.inj h
      have hlt : wordAt operands 2 < 65536 := by
        unfold wordAt
        omega
      intro he
      have hzero := congrArg BitVec.toNat (SwitchMode.trial.inj he)
      rw [BitVec.toNat_ofNat, Nat.mod_eq_of_lt (by omega)] at hzero
      exact hwindow hzero
  · cases h

theorem planMove_switchPlan (h : u.engine.inProgress = none) : PlanMove i (planView u) (planView (workSwitchPlan c u)) := by
  unfold workSwitchPlan
  split
  · next target mode _ hmode =>
    split
    · exact planMove_complete h _ _
    · split
      · exact planMove_complete h _ _
      · next hother =>
        split
        · exact planMove_complete h _ _
        · next hvalid => exact .pended c target mode hother hvalid (modeOf_ne_trial_zero hmode)
  · exact planMove_complete h _ _

theorem planMove_confirmPlan (h : u.engine.inProgress = none) : PlanMove i (planView u) (planView (workConfirmPlan c u)) := by
  unfold workConfirmPlan
  split
  · exact .ended
  · exact planMove_complete h _ _
  · exact planMove_complete h _ _

/-- RESTART ends a trial, and finds no SWITCH PLAN in progress (R79). -/
theorem planMove_restart (h : u.engine.inProgress = none) : PlanMove i (planView u) (planView (workRestart c u)) := by
  by_cases htrial : ∃ r f, u.plans.switch = .trial r f
  · obtain ⟨r, f, hswitch⟩ := htrial
    have hview : planView (workRestart c u) = { planView u with plans := { u.plans with switch := .steady }, inProgress := none } := by
      simp [planView, workRestart, restartBlocks, PlanStore.restarted, hswitch]
    rw [hview]
    exact .ended
  · have hswitch : u.plans.restarted.switch = u.plans.switch := (restarted_switch u.plans).2 fun r f e => htrial ⟨r, f, e⟩
    have hplans : (workRestart c u).plans = u.plans := by
      calc (workRestart c u).plans = { u.plans with switch := u.plans.restarted.switch } := by
            simp [workRestart, restartBlocks, PlanStore.restarted]
        _ = u.plans := by rw [hswitch]
    exact .of_eq (by simp only [planView, hplans, h]; simp [workRestart, restartBlocks])

end PlanCommands

end Sys2Proof.Proofs.Plans
end

section
/-! PROOFS. What the plan store does at a boundary, the one list of what a step can do to the plans, and the two laws that follow from it: the
running plan stays valid, and stands between boundaries. -/

namespace Sys2Proof.Proofs.Plans

open Sys2Proof.Machine Sys2Proof.Safety Sys2Proof.Laws Sys2Proof.Proofs.CellLink

/-! ## The plan store takes a boundary (R73 to R75) -/

/-- The boundary counted as taken by the plan store. -/
def plansTaken (s : State) : State :=
  { s with scheduler := { s.scheduler with due := { s.scheduler.due with plan := false } } }

theorem plansTakeBoundary_of_pending {s : State} {target : PlanId} {mode : SwitchMode} (hdue : s.scheduler.due.plan = true)
    (h : s.plans.switch = .pending target mode) : plansTakeBoundary s = switchPlans target mode (plansTaken s) := by
  simp only [plansTakeBoundary, hdue, if_true, h, plansTaken]

theorem plansTakeBoundary_of_last {s : State} {remaining : BitVec 16} {fallback : PlanId} (hdue : s.scheduler.due.plan = true)
    (h : s.plans.switch = .trial remaining fallback) (hlast : remaining.toNat ≤ 1) :
    plansTakeBoundary s = revertPlans fallback (plansTaken s) := by
  have hreverts : s.plans.reverts = true := by simp [PlanStore.reverts, h, hlast]
  simp only [plansTakeBoundary, hdue, if_true, h, hreverts, plansTaken]

theorem plansTakeBoundary_of_more {s : State} {remaining : BitVec 16} {fallback : PlanId} (hdue : s.scheduler.due.plan = true)
    (h : s.plans.switch = .trial remaining fallback) (hmore : 1 < remaining.toNat) :
    plansTakeBoundary s = { plansTaken s with plans := { s.plans with switch := .trial (remaining - 1) fallback } } := by
  have hreverts : s.plans.reverts = false := by simp [PlanStore.reverts, h, hmore]
  simp only [plansTakeBoundary, hdue, if_true, h, hreverts, plansTaken, Bool.false_eq_true, if_false]

/-- A plan store that has taken the boundary takes nothing more. -/
theorem plansTakeBoundary_of_taken {s : State} (hdue : s.scheduler.due.plan = false) : plansTakeBoundary s = s := by
  simp [plansTakeBoundary, hdue]

@[simp] theorem planView_reportPlanChange (s : State) : planView (reportPlanChange s) = planView s :=
  planView_of_leaves (by simp) (by simp) (by simp)

theorem planView_switchPlans (target : PlanId) (mode : SwitchMode) (s : State) :
    planView (switchPlans target mode s) = { planView s with plans := installed s.plans target mode, inProgress := none } := by
  unfold switchPlans
  dsimp only
  split
  · rw [planView_complete, planView_reportPlanChange, planView_post]
    rfl
  · next hidle =>
    rw [planView_reportPlanChange, planView_post]
    exact congrArg (PlanView.mk (installed s.plans target mode) · s.scheduler.position) hidle

theorem planView_revertPlans (fallback : PlanId) (s : State) :
    planView (revertPlans fallback s) = { planView s with plans := { s.plans with run := fallback, switch := .steady } } := by
  simp [planView, revertPlans]

/-- What the plan store's taking of a boundary makes of the view, from position 0 (R73 to R75). -/
theorem planMove_plansTakeBoundary {i : Instr} {v : PlanView} {u : State} (hi : DeliversBoundary i)
    (hu : planView u = { v with position := 0 }) : PlanMove i v (planView (plansTakeBoundary u)) := by
  obtain ⟨hplans, hprogress, hposition⟩ := PlanView.mk.inj hu
  have atStart : PlanMove i v (planView u) := by
    rw [hu]
    exact .stands ⟨rfl, rfl, fun h => Nat.zero_lt_of_lt h⟩
  cases hdue : u.scheduler.due.plan with
  | false =>
    rw [plansTakeBoundary_of_taken hdue]
    exact atStart
  | true =>
    cases hswitch : u.plans.switch with
    | steady =>
      rw [plansTakeBoundary_of_steady hswitch]
      exact atStart
    | pending target mode =>
      rw [plansTakeBoundary_of_pending hdue hswitch, planView_switchPlans]
      have hview : planView (plansTaken u) = { v with position := 0 } := hu
      have hv : (plansTaken u).plans = v.plans := hplans
      rw [hview, hv]
      exact .switched target mode hi (hplans ▸ hswitch)
    | trial remaining fallback =>
      by_cases hlast : remaining.toNat ≤ 1
      · rw [plansTakeBoundary_of_last hdue hswitch hlast, planView_revertPlans]
        have hview : planView (plansTaken u) = { v with position := 0 } := hu
        have hv : (plansTaken u).plans = v.plans := hplans
        rw [hview, hv]
        exact .reverted remaining fallback hi (hplans ▸ hswitch)
      · rw [plansTakeBoundary_of_more hdue hswitch (by omega)]
        have hview : planView { plansTaken u with plans := { u.plans with switch := .trial (remaining - 1) fallback } } =
            { v with plans := { v.plans with switch := .trial (remaining - 1) fallback }, position := 0 } := by
          rw [← hplans, ← hprogress, ← hposition]
          rfl
        rw [hview]
        exact .counted remaining fallback (hplans ▸ hswitch) (by omega)

/-! ## Events of a boundary -/

@[simp] theorem planView_postSurveyDone (before s : State) : planView (postSurveyDone before s) = planView s :=
  planView_of_leaves (by simp) (by simp) (by simp)

@[simp] theorem planView_surveyCountsBoundary (s : State) : planView (surveyCountsBoundary s) = planView s := by
  rw [surveyCountsBoundary_eq]
  rfl

/-- The scheduler's delivery moves the plans as the blocks it delivers to do, from position 0 (R82). -/
theorem planMove_deliverBoundary {i : Instr} {noticesLate : Bool} {blocks : State → State} {s : State}
    (h : ∀ u, planView u = { planView s with position := 0 } → PlanMove i (planView s) (planView (blocks u))) :
    PlanMove i (planView s) (planView (deliverBoundary noticesLate blocks s)) := by
  unfold deliverBoundary
  split
  · dsimp only
    split
    · exact h _ rfl
    · rw [planView_noticesTakeBoundary]
      exact h _ rfl
  · exact .of_eq rfl

theorem planMove_planAndSurvey {i : Instr} {turn : Turn} {taking : State → State} {v : PlanView}
    (h : ∀ u, planView u = { v with position := 0 } → PlanMove i v (planView (taking u))) {u : State}
    (hu : planView u = { v with position := 0 }) : PlanMove i v (planView (planAndSurvey turn taking u)) := by
  refine postBeside_cases (motive := fun t => PlanMove i v (planView t)) (h _ ?_) ?_
  · rw [planView_postSurveyDone, hu]
  · rw [planView_postSurveyDone]
    exact h u hu

theorem planMove_boundaryEvent (order : BoundaryOrder) (s : State) :
    PlanMove (.cycleBoundary order) (planView s) (planView (boundaryEvent order s)) := by
  have delivers : DeliversBoundary (.cycleBoundary order) := .inr ⟨order, rfl⟩
  unfold boundaryEvent
  split
  · exact .of_eq (planView_surveyTakesBoundary s)
  · refine planMove_deliverBoundary fun u hu => planMove_planAndSurvey (fun w hw => ?_) hu
    exact planMove_plansTakeBoundary delivers ((planView_surveyCountsBoundary w).trans hw)
  · refine planMove_deliverBoundary fun u hu => planMove_planAndSurvey (fun w hw => ?_) hu
    rw [planView_surveyCountsBoundary]
    exact planMove_plansTakeBoundary delivers hw
  · exact planMove_deliverBoundary fun u hu => planMove_plansTakeBoundary delivers hu

theorem planMove_revertEvent (s : State) : PlanMove .planReverted (planView s) (planView (revertEvent s)) := by
  unfold revertEvent
  split
  · exact planMove_plansTakeBoundary (.inl rfl) rfl
  · exact .of_eq rfl

theorem planView_expiryEvent (s : State) : planView (expiryEvent s) = planView s := by
  unfold expiryEvent
  split
  · exact planView_noticesTakeBoundary s
  · rfl

theorem planView_surveyDoneEvent (s : State) : planView (surveyDoneEvent s) = planView s := by
  unfold surveyDoneEvent
  split
  · exact planView_surveyTakesBoundary s
  · rfl

/-! ## Every step -/

theorem planMove_whileRunning {i : Instr} {event : State → State} {s : State} (h : PlanMove i (planView s) (planView (event s))) :
    PlanMove i (planView s) (planView (whileRunning s event)) :=
  whileRunning_cases (motive := fun t => PlanMove i (planView s) (planView t)) (.of_eq rfl) fun _ => h

theorem planMove_of_stands {i : Instr} {event : State → State} (h : Stands event) (s : State) :
    PlanMove i (planView s) (planView (whileRunning s event)) :=
  planMove_whileRunning (.stands (h s))

theorem planMove_of_answersOnly {i : Instr} {k : CommandKind} {work : TakenCommand → State → State} (h : AnswersOnly work) (s : State) :
    PlanMove i (planView s) (planView (whileRunning s (runCommand k work))) :=
  planMove_of_stands (stands_of_view (planView_runCommand h)) s

theorem planMove_of_work {i : Instr} {k : CommandKind} {work : TakenCommand → State → State}
    (hw : ∀ {c u}, u.engine.inProgress = none → PlanMove i (planView u) (planView (work c u))) (s : State) :
    PlanMove i (planView s) (planView (whileRunning s (runCommand k work))) :=
  planMove_whileRunning (planMove_runCommand (fun _ _ => hw) s)

/-- The beginning of a hard reset ends a SWITCH PLAN or a trial in progress (R57). -/
theorem planMove_beginHardReset {i : Instr} (cause : ResetCause) (s : State) :
    PlanMove i (planView s) (planView (beginHardReset cause s)) := .ended

theorem planMove_resetNEvent {i : Instr} (s : State) : PlanMove i (planView s) (planView (resetNEvent s)) := by
  unfold resetNEvent
  dsimp only
  split
  · exact planMove_beginHardReset .resetPin _
  · exact .of_eq rfl

theorem planMove_hardResetEndEvent (s : State) : PlanMove .hardResetEnd (planView s) (planView (hardResetEndEvent s)) := by
  unfold hardResetEndEvent
  split
  · next cause _ => exact .booted _ (plansOk_afterHardReset cause _ _ _) rfl
  · exact .of_eq rfl

/-- Every step moves the plans in one of the ways of `PlanMove`. -/
theorem exec_planMove {i : Instr} {s t : State} (ht : exec i s = .next t) : PlanMove i (planView s) (planView t) := by
  cases i <;> injection ht with ht <;> subst ht
  case powerOn => exact planMove_beginHardReset .powerOn _
  case resetN => exact planMove_resetNEvent s
  case hardResetEnd => exact planMove_hardResetEndEvent s
  case signalLoss l turn => exact .of_eq (planView_signalLossEvent turn l s)
  case signalReturn l => exact .of_eq (planView_signalReturnEvent l s)
  case seekHeaderTest l bytes => exact planMove_of_stands (stands_of_view (planView_seekTest l bytes)) s
  case confirmHeaderTest l bytes turn => exact planMove_of_stands (stands_confirmTest turn l bytes) s
  case lockedHeaderTest l bytes between turn =>
    exact planMove_of_stands (stands_lockedTestWith (stands_runStoreEvents between) turn l bytes) s
  case slot => exact planMove_of_stands stands_slotEvent s
  case cycleBoundary order => exact planMove_whileRunning (planMove_boundaryEvent order s)
  case planReverted => exact planMove_whileRunning (planMove_revertEvent s)
  case noticeRepeatExpiry => exact planMove_of_stands (stands_of_view planView_expiryEvent) s
  case surveyDone => exact planMove_of_stands (stands_of_view planView_surveyDoneEvent) s
  case tributaryCellTime n => exact planMove_of_stands (stands_of_view (planView_cellTimeEvent n)) s
  case unknownKind => exact planMove_of_stands (stands_of_view planView_runUnknown) s
  case restart => exact planMove_of_work planMove_restart s
  case selectEditPlan => exact planMove_of_work planMove_selectEditPlan s
  case writeSlots => exact planMove_of_work planMove_writeSlots s
  case setCycleLength => exact planMove_of_work planMove_setCycleLength s
  case writeTributaryEntry => exact planMove_of_work planMove_writeTributaryEntry s
  case setPlanOptions => exact planMove_of_work planMove_setPlanOptions s
  case copyPlan => exact planMove_of_work planMove_copyPlan s
  case switchPlan => exact planMove_of_work planMove_switchPlan s
  case confirmPlan => exact planMove_of_work planMove_confirmPlan s
  case echo => exact planMove_of_answersOnly answersOnly_echo s
  case identify => exact planMove_of_answersOnly answersOnly_identify s
  case readStatus => exact planMove_of_answersOnly answersOnly_readStatus s
  case readSlots => exact planMove_of_answersOnly answersOnly_readSlots s
  case readTributaryEntry => exact planMove_of_answersOnly answersOnly_readTributaryEntry s
  case readPlanOptions => exact planMove_of_answersOnly answersOnly_readPlanOptions s
  case writePort turn => exact planMove_of_answersOnly (answersOnly_writePort turn) s
  case readPort => exact planMove_of_answersOnly answersOnly_readPort s
  case flushPort => exact planMove_of_answersOnly answersOnly_flushPort s
  case writeChannels => exact planMove_of_answersOnly answersOnly_writeChannels s
  case readChannel => exact planMove_of_answersOnly answersOnly_readChannel s
  case readCounters => exact planMove_of_answersOnly answersOnly_readCounters s
  case clearCounters => exact planMove_of_answersOnly answersOnly_clearCounters s
  case startSurvey => exact planMove_of_answersOnly answersOnly_startSurvey s
  case stopSurvey => exact planMove_of_answersOnly answersOnly_stopSurvey s
  case readSurvey => exact planMove_of_answersOnly answersOnly_readSurvey s
  case ackNotice => exact planMove_of_answersOnly answersOnly_ackNotice s
  case setNoticeOptions => exact planMove_of_answersOnly answersOnly_setNoticeOptions s

/-! ## The running plan stays valid -/

/-- The switch state is sound, in terms of the command in progress alone (R60, R72, R74). -/
def SwitchSound (ps : PlanStore) (inProgress : Option TakenCommand) : Prop :=
  match ps.switch with
  | .steady => inProgress = none
  | .pending target mode => target ≠ ps.run ∧ ps.plan[target].fault = none ∧ mode ≠ .trial 0 ∧ inProgress.isSome = true
  | .trial remaining fallback => remaining ≠ 0 ∧ fallback ≠ ps.run ∧ ps.plan[fallback].fault = none ∧ inProgress = none

/-- The law of plans on the view. -/
structure PlanView.Ok (v : PlanView) : Prop where
  ranged : ∀ p : PlanId, planOk v.plans.plan[p]
  valid : v.plans.running.fault = none
  switch : SwitchSound v.plans v.inProgress
  position : v.position < v.plans.running.length

theorem plansOk_iff {s : State} : PlansOk s ↔ (planView s).Ok :=
  ⟨fun ⟨ranged, valid, switch, position⟩ => ⟨ranged, valid, switch, position⟩,
    fun ⟨ranged, valid, switch, position⟩ => ⟨ranged, valid, switch, position⟩⟩

/-- A plan of two read after one is written. -/
theorem plan_get_set (plans : Vector Plan 2) (p q : PlanId) (x : Plan) : (plans.set p x)[q] = if q = p then x else plans[q] := by
  simp only [Fin.getElem_fin, Vector.getElem_set, Fin.ext_iff, eq_comm]

theorem frozen_eq_false {ps : PlanStore} : ps.frozen = false ↔ ps.edit ≠ ps.run ∧ ∀ r f, ps.switch ≠ .trial r f := by
  unfold PlanStore.frozen
  cases ps.switch <;> simp

/-- With no command in progress the switch state is STEADY or TRIAL (R72). -/
theorem SwitchSound.ne_pending {ps : PlanStore} {inProgress : Option TakenCommand} (h : SwitchSound ps inProgress)
    (hidle : inProgress = none) (target : PlanId) (mode : SwitchMode) : ps.switch ≠ .pending target mode := by
  intro hs
  simp [SwitchSound, hs, hidle] at h

theorem zero_lt_length {p : Plan} (h : planOk p) : 0 < p.length := by
  obtain ⟨hlow, -, -⟩ := h
  omega

/-- Every move of the plans keeps their law. -/
theorem PlanMove.keeps_ok {i : Instr} {v w : PlanView} (h : v.Ok) (move : PlanMove i v w) : w.Ok := by
  obtain ⟨ranged, valid, switch, position⟩ := h
  cases move with
  | stands stand =>
    obtain ⟨hplans, hprogress, hposition⟩ := stand
    exact ⟨hplans ▸ ranged, hplans ▸ valid, hplans ▸ hprogress ▸ switch, hplans ▸ hposition position⟩
  | selected p => exact ⟨ranged, valid, switch, position⟩
  | written p editable idle hp =>
    obtain ⟨hedit, htrial⟩ := frozen_eq_false.mp editable
    have hrun : (v.plans.plan.set v.plans.edit p)[v.plans.run] = v.plans.plan[v.plans.run] :=
      (plan_get_set _ _ _ _).trans (if_neg (Ne.symm hedit))
    have hsteady : v.plans.switch = .steady := by
      cases hs : v.plans.switch with
      | steady => rfl
      | pending target mode => exact absurd hs (switch.ne_pending idle target mode)
      | trial r f => exact absurd hs (htrial r f)
    refine ⟨fun q => ?_, (congrArg Plan.fault hrun).trans valid, ?_, ?_⟩
    · show planOk (v.plans.plan.set v.plans.edit p)[q]
      rw [plan_get_set]
      split
      · exact hp ranged
      · exact ranged q
    · simp only [SwitchSound, hsteady]
      exact idle
    · show v.position < (v.plans.plan.set v.plans.edit p)[v.plans.run].length
      rw [hrun]
      exact position
  | ended => exact ⟨ranged, valid, rfl, position⟩
  | pended c target mode other targetValid window => exact ⟨ranged, valid, ⟨other, targetValid, window, rfl⟩, position⟩
  | switched target mode boundary pending =>
    simp only [SwitchSound, pending] at switch
    obtain ⟨other, targetValid, window, -⟩ := switch
    refine ⟨ranged, targetValid, ?_, zero_lt_length (ranged target)⟩
    cases mode with
    | firm => rfl
    | trial cycles => exact ⟨fun e => window (congrArg SwitchMode.trial e), Ne.symm other, valid, rfl⟩
  | counted remaining fallback trial more =>
    simp only [SwitchSound, trial] at switch
    obtain ⟨-, other, fallbackValid, idle⟩ := switch
    have left : remaining - 1 ≠ 0 := by bv_omega
    exact ⟨ranged, valid, ⟨left, other, fallbackValid, idle⟩, zero_lt_length (ranged v.plans.run)⟩
  | reverted remaining fallback boundary trial =>
    simp only [SwitchSound, trial] at switch
    obtain ⟨-, -, fallbackValid, idle⟩ := switch
    exact ⟨ranged, fallbackValid, idle, zero_lt_length (ranged fallback)⟩
  | booted s sound _ => exact plansOk_iff.mp sound

/-- Settles O8: every step moves the plans in one of the ways of `PlanMove`, and each of them keeps the law. -/
theorem stepKeepsRunningPlanValid : Obligations.StepKeepsRunningPlanValid := by
  unfold Obligations.StepKeepsRunningPlanValid
  intro s t hs h
  exact step_keeps (fun _ _ hs => hs) (fun _ _ _ hs ht => plansOk_iff.mpr ((exec_planMove ht).keeps_ok (plansOk_iff.mp hs))) hs h

/-! ## The running plan stands between boundaries -/

/-- No move but the end of a hard reset changes the running plan's contents, and none of either plan in a trial (R61). -/
theorem PlanMove.contents {i : Instr} {v w : PlanView} (move : PlanMove i v w) (hi : i ≠ .hardResetEnd) :
    w.plans.plan[v.plans.run] = v.plans.plan[v.plans.run]
      ∧ ((∃ r f, v.plans.switch = .trial r f) → w.plans.plan = v.plans.plan) := by
  cases move with
  | stands stand => rw [stand.plans]; exact ⟨rfl, fun _ => rfl⟩
  | written p editable =>
    obtain ⟨hedit, htrial⟩ := frozen_eq_false.mp editable
    exact ⟨(plan_get_set _ _ _ _).trans (if_neg (Ne.symm hedit)), fun ⟨r, f, hs⟩ => absurd hs (htrial r f)⟩
  | booted _ _ hardReset => exact absurd hardReset hi
  | selected | ended | pended | switched | counted | reverted => exact ⟨rfl, fun _ => rfl⟩

/-- The run selector moves only at a boundary or the end of a hard reset (R58). -/
theorem PlanMove.run {i : Instr} {v w : PlanView} (move : PlanMove i v w) (hrun : w.plans.run ≠ v.plans.run) :
    DeliversBoundary i ∨ i = .hardResetEnd := by
  cases move with
  | stands stand => exact absurd (congrArg PlanStore.run stand.plans) hrun
  | switched _ _ boundary => exact .inl boundary
  | reverted _ _ boundary => exact .inl boundary
  | booted _ _ hardReset => exact .inr hardReset
  | selected | written | ended | pended | counted => exact absurd rfl hrun

/-- Settles O12: of the ways of `PlanMove` only a write changes contents, which goes to an edit plan that does not run outside a trial, and
only a switch and a revert move the run selector. -/
theorem runningPlanStandsBetweenBoundaries : Obligations.RunningPlanStandsBetweenBoundaries := by
  unfold Obligations.RunningPlanStandsBetweenBoundaries
  intro i s t ht
  have move := exec_planMove ht
  refine ⟨fun hi => move.contents hi, fun hrun => ?_⟩
  obtain (hrevert | hboundary) | hend := move.run hrun
  · exact .inl hrevert
  · exact .inr (.inr hboundary)
  · exact .inr (.inl hend)

end Sys2Proof.Proofs.Plans
end

section
/-! PROOFS. The commands that select, edit, read, switch and confirm plans: their operands, their checks in order, and their answers (R60 to
R71, R76). -/

namespace Sys2Proof.Proofs.Plans

open Sys2Proof.Machine Sys2Proof.Safety Sys2Proof.Laws Sys2Proof.Claims Sys2Proof.Proofs.CellStore

/-! ## Operands -/

theorem planOf_byteOf (p : PlanId) : planOf (byteOf p.val) = some p := by
  revert p
  decide

theorem planOf_of_gt {b : Byte} (h : 1 < b.toNat) : planOf b = none := dif_neg (by omega)

theorem tribOf_isSome_iff (b : Byte) : (tribOf b).isSome = true ↔ b.toNat ≤ 7 := by
  unfold tribOf
  split
  · simp; omega
  · simp; omega

theorem flagOf_isSome_iff (b : Byte) : (flagOf b).isSome = true ↔ b.toNat ≤ 1 := by
  unfold flagOf
  split
  · next h => subst h; decide
  · split
    · next h => subst h; decide
    · simp
      bv_omega

/-- An express operand names a tributary or none (R66). -/
theorem expressOf_isSome_iff (b : Byte) : (expressOf b).isSome = true ↔ b.toNat ≤ 7 ∨ b = 0xFF := by
  unfold expressOf absentByte
  split
  · next h => simp [h]
  · next h => rw [Option.isSome_map, tribOf_isSome_iff, or_iff_left h]

theorem expressOf_byte (x : Option Trib) : expressOf (match x with | some n => byteOf n.val | none => 0xFF) = some x := by
  cases x with
  | none => rfl
  | some n =>
    revert n
    decide

/-- An entry is accepted exactly when every value is in its range (R65). -/
theorem entryOf_isSome_iff (operands : List Byte) :
    (entryOf operands).isSome = true ↔
      (byteAt operands 1).toNat ≤ 7 ∧ (byteAt operands 2).toNat ≤ 1 ∧ wordAt operands 3 ≤ 944 ∧ 1 ≤ (byteAt operands 5).toNat
        ∧ (byteAt operands 5).toNat ≤ 64 := by
  rw [← tribOf_isSome_iff, ← flagOf_isSome_iff]
  unfold entryOf
  dsimp only
  cases tribOf (byteAt operands 1) <;> cases flagOf (byteAt operands 2) <;> simp

theorem entryOf_of_operands {e : PlanEntry} {operands : List Byte} (hrank : byteAt operands 1 = byteOf e.rank.val)
    (hborrow : byteAt operands 2 = flagByte e.borrow) (hbase : wordAt operands 3 = e.tagBase.toNat)
    (hlimit : (byteAt operands 5).toNat = e.limit) (hrange : e.tagBase.toNat ≤ 944 ∧ 1 ≤ e.limit ∧ e.limit ≤ 64) :
    entryOf operands = some e := by
  have hrankOf : tribOf (byteAt operands 1) = some e.rank := by rw [hrank, tribOf_byteOf]
  have hborrowOf : flagOf (byteAt operands 2) = some e.borrow := by rw [hborrow, flagOf_flagByte]
  simp only [entryOf, hrankOf, hborrowOf, hbase, hlimit, BitVec.ofNat_toNat, BitVec.setWidth_eq]
  exact if_pos hrange

/-! ## Slot owners (R63) -/

theorem ofByte_code (o : Owner) : Owner.ofByte o.code = some o := by
  cases o with
  | trib n =>
    revert n
    decide
  | management => rfl
  | openSlot => rfl

theorem ownersOf_codes (owners : List Owner) : ownersOf (owners.map Owner.code) = some owners := by
  induction owners with
  | nil => rfl
  | cons o os ih => simp only [List.map_cons, ownersOf, ofByte_code, ih]

theorem ofByte_isSome_iff (b : Byte) : (Owner.ofByte b).isSome = true ↔ b.toNat ≤ 9 := by
  unfold Owner.ofByte
  split
  · simp; omega
  · split
    · next h => subst h; decide
    · split
      · next h => subst h; decide
      · simp
        bv_omega

/-- A list of bytes names owners exactly when each byte does (R63). -/
theorem ownersOf_isSome_iff (bytes : List Byte) : (ownersOf bytes).isSome = true ↔ ∀ b ∈ bytes, b.toNat ≤ 9 := by
  induction bytes with
  | nil => simp [ownersOf]
  | cons b bs ih =>
    have hcons : (ownersOf (b :: bs)).isSome = ((Owner.ofByte b).isSome && (ownersOf bs).isSome) := by
      simp only [ownersOf]
      cases Owner.ofByte b <;> cases ownersOf bs <;> rfl
    rw [hcons, Bool.and_eq_true, ofByte_isSome_iff, ih, List.forall_mem_cons]

/-- An entry of a slot list after owners are written: the owner written there, or the one before (R63). -/
theorem writeOwners_get (owners : List Owner) : ∀ (start : Nat) (slots : Vector Owner 256) {k : Nat} (hk : k < 256),
    (writeOwners owners start slots)[k] =
      if start ≤ k ∧ k < start + owners.length then owners.getD (k - start) .openSlot else slots[k] := by
  induction owners with
  | nil =>
    intro start slots k hk
    exact (if_neg (by simp)).symm
  | cons o os ih =>
    intro start slots k hk
    rw [writeOwners, ih _ _ hk, Vector.getElem_setIfInBounds hk, List.length_cons]
    obtain hbefore | rfl | hafter := Nat.lt_trichotomy k start
    · rw [if_neg (by omega), if_neg (by omega), if_neg (by omega)]
    · rw [if_neg (by omega), if_pos rfl, if_pos (by omega)]
      simp
    · obtain ⟨j, rfl⟩ := Nat.exists_eq_add_of_lt hafter
      have hj : start + j + 1 - start = j + 1 := by omega
      have hj' : start + j + 1 - (start + 1) = j := by omega
      rw [if_neg (show ¬start = start + j + 1 by omega), hj, hj', List.getD_cons_succ]
      exact if_congr (by omega) rfl rfl

theorem owner_eq_get (p : Plan) {k : Nat} (hk : k < 256) : p.owner k = p.slots[k] := by
  unfold Plan.owner
  rw [List.getD_eq_getElem _ _ (by simpa using hk)]
  simp

end Sys2Proof.Proofs.Plans
end

section
/-! PROOFS. SELECT EDIT PLAN and the five plan writes: what each changes, and when it is refused (R61 to R67). -/

namespace Sys2Proof.Proofs.Plans

open Sys2Proof.Machine Sys2Proof.Safety Sys2Proof.Laws Sys2Proof.Claims Sys2Proof.Proofs.CellStore

/-! ## SELECT EDIT PLAN (R62) -/

theorem workSelectEditPlan_of_plan {c : TakenCommand} {p : PlanId} (h : byteAt c.operands 0 = byteOf p.val) (u : State) :
    workSelectEditPlan c u = complete c .ok [] { u with plans := { u.plans with edit := p } } := by
  simp only [workSelectEditPlan, h, planOf_byteOf]

theorem workSelectEditPlan_of_range {c : TakenCommand} (h : 1 < (byteAt c.operands 0).toNat) (u : State) :
    workSelectEditPlan c u = complete c .range [] u := by
  simp only [workSelectEditPlan, planOf_of_gt h, answerRange]

/-- Settles O44: the operand names a plan, which becomes the edit plan, or none. -/
theorem selectEditPlanMovesEditSelector : Obligations.SelectEditPlanMovesEditSelector := by
  unfold Obligations.SelectEditPlanMovesEditSelector
  intro c rest s hready
  have hexec : exec .selectEditPlan s = .next (workSelectEditPlan c (beginCommand rest s)) := exec_of_ready hready rfl
  constructor
  · intro p hp
    rw [workSelectEditPlan_of_plan hp] at hexec
    exact answers_complete hexec rfl
  · intro hrange
    rw [workSelectEditPlan_of_range hrange] at hexec
    exact answers_complete hexec rfl

/-! ## A plan write that has passed its range checks (R61) -/

theorem frozen_of_editable {s : State} (h : Editable s) : s.plans.frozen = false := frozen_eq_false.mpr h

theorem frozen_of_refused {s : State} (h : s.plans.edit = s.plans.run ∨ ∃ r f, s.plans.switch = .trial r f) :
    s.plans.frozen = true := by
  by_contra hfree
  obtain ⟨hedit, htrial⟩ := frozen_eq_false.mp (Bool.eq_false_iff.mpr hfree)
  obtain hrun | ⟨r, f, hs⟩ := h
  · exact hedit hrun
  · exact htrial r f hs

theorem writeEditPlan_of_editable {u : State} (h : Editable u) (c : TakenCommand) (change : Plan → Plan) :
    writeEditPlan c change u = complete c .ok [] (editPlan (change u.plans.plan[u.plans.edit]) u) := by
  simp only [writeEditPlan, frozen_of_editable h, Bool.false_eq_true, if_false, editPlan]

/-- The run selector and the switch state as the statements spell them (section 10.4). -/
theorem planPosition_eq (s : State) : planPosition s = [byteOf s.plans.run.val, switchCode s.plans] := by
  unfold planPosition switchCode planByte
  cases s.plans.switch <;> rfl

theorem writeEditPlan_of_refused {u : State} (h : u.plans.edit = u.plans.run ∨ ∃ r f, u.plans.switch = .trial r f) (c : TakenCommand)
    (change : Plan → Plan) :
    writeEditPlan c change u = complete c .inUse [byteOf u.plans.run.val, switchCode u.plans] u := by
  simp only [writeEditPlan, frozen_of_refused h, if_true, planPosition_eq]

section PlanWrite

variable {i : Instr} {k : CommandKind} {work : TakenCommand → State → State} {c : TakenCommand} {rest : List TakenCommand} {s : State}

/-- A ready plan write in range on an editable plan answers OK, its change made to the edit plan (R61). -/
theorem answers_editPlan (hready : Ready k c rest s) (hi : exec i s = .next (whileRunning s (runCommand k work))) (hedit : Editable s)
    {change : Plan → Plan} (hwork : work c (beginCommand rest s) = writeEditPlan c change (beginCommand rest s)) :
    Answers i c rest .ok [] s (editPlan (change s.plans.plan[s.plans.edit]) s) := by
  have hexec := exec_of_ready hready hi
  have heditable : Editable (beginCommand rest s) := hedit
  rw [hwork, writeEditPlan_of_editable heditable] at hexec
  exact answers_complete hexec rfl

/-- Work that judges its operands by the ranges of a plan write, and then writes the edit plan (R61). -/
def WritesPlan (k : CommandKind) (work : TakenCommand → State → State) : Prop :=
  ∀ c u, (¬PlanWriteInRange k c.operands → work c u = complete c .range [] u)
    ∧ (PlanWriteInRange k c.operands → ∃ change, work c u = writeEditPlan c change u)

/-- A ready plan write that is out of range, or in range on a frozen plan, is refused with nothing changed (R61). -/
theorem refused_of_writesPlan (hwork : WritesPlan k work) (hready : Ready k c rest s)
    (hi : exec i s = .next (whileRunning s (runCommand k work))) :
    (¬PlanWriteInRange k c.operands → Answers i c rest .range [] s s)
      ∧ (PlanWriteInRange k c.operands → (s.plans.edit = s.plans.run ∨ ∃ r f, s.plans.switch = .trial r f) →
        Answers i c rest .inUse [byteOf s.plans.run.val, switchCode s.plans] s s) := by
  have hexec := exec_of_ready hready hi
  obtain ⟨hout, hin⟩ := hwork c (beginCommand rest s)
  constructor
  · intro hrange
    rw [hout hrange] at hexec
    exact answers_complete hexec rfl
  · intro hrange hfrozen
    obtain ⟨change, hchange⟩ := hin hrange
    have hrefused := writeEditPlan_of_refused (u := beginCommand rest s) hfrozen c change
    rw [hchange, hrefused] at hexec
    exact answers_complete hexec rfl

end PlanWrite

/-! ## The range checks of each plan write -/

/-- WRITE SLOTS is in range when its start and count are and its bytes name owners (R63). -/
theorem writeSlotsInRange_iff (operands : List Byte) :
    PlanWriteInRange .writeSlots operands ↔
      slotRangeOk (byteAt operands 0).toNat (byteAt operands 1).toNat = true
        ∧ (ownersOf ((operands.drop 2).take (byteAt operands 1).toNat)).isSome = true := by
  rw [ownersOf_isSome_iff]
  simp only [PlanWriteInRange, slotRangeOk, decide_eq_true_eq, and_assoc]

theorem workWriteSlots_of_owners {c : TakenCommand} {owners : List Owner}
    (hrange : slotRangeOk (byteAt c.operands 0).toNat (byteAt c.operands 1).toNat = true)
    (howners : ownersOf ((c.operands.drop 2).take (byteAt c.operands 1).toNat) = some owners) (u : State) :
    workWriteSlots c u =
      writeEditPlan c (fun p => { p with slots := writeOwners owners (byteAt c.operands 0).toNat p.slots }) u := by
  simp only [workWriteSlots, howners, hrange, if_true]

theorem writesPlan_writeSlots : WritesPlan .writeSlots workWriteSlots := by
  intro c u
  rw [writeSlotsInRange_iff]
  constructor
  · intro hout
    unfold workWriteSlots
    dsimp only
    split
    · next owners howners => exact if_neg fun hrange => hout ⟨hrange, by rw [howners]; rfl⟩
    · rfl
  · rintro ⟨hrange, hsome⟩
    obtain ⟨owners, howners⟩ := Option.isSome_iff_exists.mp hsome
    exact ⟨_, workWriteSlots_of_owners hrange howners u⟩

theorem writesPlan_setCycleLength : WritesPlan .setCycleLength workSetCycleLength := fun _ _ =>
  ⟨fun h => if_neg h, fun h => ⟨_, if_pos h⟩⟩

theorem workWriteTributaryEntry_of_entry {c : TakenCommand} {n : Trib} {e : PlanEntry} (hn : tribOf (byteAt c.operands 0) = some n)
    (he : entryOf c.operands = some e) (u : State) :
    workWriteTributaryEntry c u = writeEditPlan c (fun p => { p with entries := p.entries.set n e }) u := by
  simp only [workWriteTributaryEntry, hn, he]

theorem writesPlan_writeTributaryEntry : WritesPlan .writeTributaryEntry workWriteTributaryEntry := by
  intro c u
  have hrange : PlanWriteInRange .writeTributaryEntry c.operands ↔
      (tribOf (byteAt c.operands 0)).isSome = true ∧ (entryOf c.operands).isSome = true := by
    rw [tribOf_isSome_iff, entryOf_isSome_iff]
    rfl
  rw [hrange]
  constructor
  · intro hout
    unfold workWriteTributaryEntry
    split
    · next hn he => exact absurd ⟨by rw [hn]; rfl, by rw [he]; rfl⟩ hout
    · rfl
  · rintro ⟨htrib, hentry⟩
    obtain ⟨n, hn⟩ := Option.isSome_iff_exists.mp htrib
    obtain ⟨e, he⟩ := Option.isSome_iff_exists.mp hentry
    exact ⟨_, workWriteTributaryEntry_of_entry hn he u⟩

theorem workSetPlanOptions_of_options {c : TakenCommand} {x : Option Trib} {o : Bool} (hx : expressOf (byteAt c.operands 0) = some x)
    (ho : flagOf (byteAt c.operands 1) = some o) (u : State) :
    workSetPlanOptions c u = writeEditPlan c (fun p => { p with express := x, overtake := o }) u := by
  simp only [workSetPlanOptions, hx, ho]

theorem writesPlan_setPlanOptions : WritesPlan .setPlanOptions workSetPlanOptions := by
  intro c u
  have hrange : PlanWriteInRange .setPlanOptions c.operands ↔
      (expressOf (byteAt c.operands 0)).isSome = true ∧ (flagOf (byteAt c.operands 1)).isSome = true := by
    rw [expressOf_isSome_iff, flagOf_isSome_iff]
    rfl
  rw [hrange]
  constructor
  · intro hout
    unfold workSetPlanOptions
    split
    · next hx ho => exact absurd ⟨by rw [hx]; rfl, by rw [ho]; rfl⟩ hout
    · rfl
  · rintro ⟨hexpress, hflag⟩
    obtain ⟨x, hx⟩ := Option.isSome_iff_exists.mp hexpress
    obtain ⟨o, ho⟩ := Option.isSome_iff_exists.mp hflag
    exact ⟨_, workSetPlanOptions_of_options hx ho u⟩

theorem writesPlan_copyPlan : WritesPlan .copyPlan workCopyPlan := fun _ _ => ⟨fun h => absurd trivial h, fun _ => ⟨_, rfl⟩⟩

/-- Settles O47: each of the five judges its operands by its ranges, and one judgement of the edit plan serves them all. -/
theorem planWritesRefused : Obligations.PlanWritesRefused := by
  unfold Obligations.PlanWritesRefused
  intro i k c rest s hi hk hready
  simp only [planWrites, List.mem_cons, List.not_mem_nil, or_false] at hi
  obtain rfl | rfl | rfl | rfl | rfl := hi
  · obtain rfl := Option.some.inj hk
    exact refused_of_writesPlan writesPlan_writeSlots hready rfl
  · obtain rfl := Option.some.inj hk
    exact refused_of_writesPlan writesPlan_setCycleLength hready rfl
  · obtain rfl := Option.some.inj hk
    exact refused_of_writesPlan writesPlan_writeTributaryEntry hready rfl
  · obtain rfl := Option.some.inj hk
    exact refused_of_writesPlan writesPlan_setPlanOptions hready rfl
  · obtain rfl := Option.some.inj hk
    exact refused_of_writesPlan writesPlan_copyPlan hready rfl

/-! ## What each plan write changes -/

/-- Settles O45: the owners the bytes name are written one entry after the other, and every other entry is read as before. -/
theorem writeSlotsWritesOwners : Obligations.WriteSlotsWritesOwners := by
  unfold Obligations.WriteSlotsWritesOwners
  intro c rest s owners hready hrange hedit hbytes
  obtain ⟨hslots, -⟩ := (writeSlotsInRange_iff _).mp hrange
  have howners : ownersOf ((c.operands.drop 2).take (byteAt c.operands 1).toNat) = some owners := by rw [hbytes, ownersOf_codes]
  refine ⟨_, answers_editPlan hready rfl hedit (workWriteSlots_of_owners hslots howners _), rfl, fun k hk => ?_⟩
  rw [owner_eq_get _ hk, owner_eq_get _ hk]
  exact writeOwners_get owners _ _ hk

/-- Settles O46: each of the four is one change of the edit plan. -/
theorem planWritesChangeOnlyWhatTheyName : Obligations.PlanWritesChangeOnlyWhatTheyName := by
  unfold Obligations.PlanWritesChangeOnlyWhatTheyName
  intro c rest s hedit
  refine ⟨fun hready hrange => ?_, fun n e hready hrange hn hrank hborrow hbase hlimit => ?_, fun x o hready hx ho => ?_, fun hready => ?_⟩
  · exact answers_editPlan (change := fun p => { p with length := wordAt c.operands 0 }) hready rfl hedit (if_pos hrange)
  · obtain ⟨-, -, -, hbaseRange, hlimitRange⟩ := hrange
    have he : entryOf c.operands = some e := by
      rw [hbase] at hbaseRange
      rw [hlimit] at hlimitRange
      exact entryOf_of_operands hrank hborrow hbase hlimit ⟨hbaseRange, hlimitRange⟩
    have htrib : tribOf (byteAt c.operands 0) = some n := by rw [hn, tribOf_byteOf]
    exact answers_editPlan hready rfl hedit (workWriteTributaryEntry_of_entry htrib he _)
  · have hexpress : expressOf (byteAt c.operands 0) = some x := by
      rw [hx]
      exact expressOf_byte x
    have hflag : flagOf (byteAt c.operands 1) = some o := by rw [ho, flagOf_flagByte]
    exact answers_editPlan hready rfl hedit (workSetPlanOptions_of_options hexpress hflag _)
  · exact answers_editPlan (change := fun _ => s.plans.running) hready rfl hedit rfl

end Sys2Proof.Proofs.Plans
end

section
/-! PROOFS. The plan reads: the data of each, and the three conditions of validity in the order of their verdict (R60, R68 to R70). -/

namespace Sys2Proof.Proofs.Plans

open Sys2Proof.Machine Sys2Proof.Safety Sys2Proof.Laws Sys2Proof.Claims Sys2Proof.Proofs.CellLink Sys2Proof.Proofs.CellStore

/-! ## READ SLOTS (R68) -/

/-- The codes of consecutive entries of a slot list. -/
def slotCodes (p : Plan) (start count : Nat) : List Byte := ((p.slots.toList.drop start).take count).map Owner.code

theorem slotCodes_length {start count : Nat} (h : start + count ≤ 256) (p : Plan) : (slotCodes p start count).length = count := by
  simp [slotCodes]
  omega

theorem byteAt_slotCodes {start count k : Nat} (h : start + count ≤ 256) (hk : k < count) (p : Plan) :
    byteAt (slotCodes p start count) k = (p.owner (start + k)).code := by
  unfold byteAt
  rw [List.getD_eq_getElem _ _ (by rw [slotCodes_length h]; exact hk), owner_eq_get p (by omega)]
  simp [slotCodes]

section ReadPlan

variable {c : TakenCommand} {p : PlanId}

theorem slotRangeOk_iff {start count : Nat} : slotRangeOk start count = true ↔ 1 ≤ count ∧ count ≤ 24 ∧ start + count ≤ 256 :=
  decide_eq_true_iff

theorem workReadSlots_of_range (hp : byteAt c.operands 0 = byteOf p.val)
    (hrange : slotRangeOk (byteAt c.operands 1).toNat (byteAt c.operands 2).toNat = true) (u : State) :
    workReadSlots c u =
      complete c .ok (slotCodes u.plans.plan[p] (byteAt c.operands 1).toNat (byteAt c.operands 2).toNat) u := by
  simp only [workReadSlots, hp, planOf_byteOf, hrange, if_true, slotCodes]

theorem workReadSlots_of_bad
    (h : 1 < (byteAt c.operands 0).toNat ∨ slotRangeOk (byteAt c.operands 1).toNat (byteAt c.operands 2).toNat ≠ true) (u : State) :
    workReadSlots c u = complete c .range [] u := by
  obtain hplan | hrange := h
  · simp only [workReadSlots, planOf_of_gt hplan, answerRange]
  · unfold workReadSlots
    dsimp only
    split
    · exact if_neg hrange
    · rfl

/-! ## READ TRIBUTARY ENTRY (R69) -/

theorem workReadTributaryEntry_of_entry {n : Trib} (hp : byteAt c.operands 0 = byteOf p.val) (hn : byteAt c.operands 1 = byteOf n.val)
    (u : State) : workReadTributaryEntry c u = complete c .ok (entryData u.plans.plan[p].entries[n]) u := by
  simp only [workReadTributaryEntry, hp, planOf_byteOf, hn, tribOf_byteOf]

theorem workReadTributaryEntry_of_bad (h : 1 < (byteAt c.operands 0).toNat ∨ 7 < (byteAt c.operands 1).toNat) (u : State) :
    workReadTributaryEntry c u = complete c .range [] u := by
  unfold workReadTributaryEntry
  split
  · next hp hn =>
    obtain hplan | htrib := h
    · rw [planOf_of_gt hplan] at hp
      cases hp
    · rw [tribOf_of_gt htrib] at hn
      cases hn
  · rfl

/-! ## READ PLAN OPTIONS (R70) -/

theorem workReadPlanOptions_of_plan (hp : byteAt c.operands 0 = byteOf p.val) (u : State) :
    workReadPlanOptions c u = complete c .ok (optionsData u.plans.plan[p]) u := by
  simp only [workReadPlanOptions, hp, planOf_byteOf]

theorem workReadPlanOptions_of_bad (h : 1 < (byteAt c.operands 0).toNat) (u : State) :
    workReadPlanOptions c u = complete c .range [] u := by
  simp only [workReadPlanOptions, planOf_of_gt h, answerRange]

end ReadPlan

/-- Verdict and reason of a plan as two bytes, 0 and 0 for a valid one (R70). -/
def verdictOf (p : Plan) : Byte × Byte :=
  match p.fault with
  | none => (0, 0)
  | some reason => (1, reason.code)

theorem optionsData_eq (p : Plan) :
    optionsData p =
      bytes16 p.length
        ++ [match p.express with | some n => byteOf n.val | none => 0xFF, flagByte p.overtake, (verdictOf p).1, (verdictOf p).2] := by
  have hexpress : expressByte p.express = match p.express with | some n => byteOf n.val | none => 0xFF := by
    cases p.express <;> rfl
  have hverdict : verdictBytes p = [(verdictOf p).1, (verdictOf p).2] := by
    unfold verdictBytes verdictOf
    cases p.fault <;> rfl
  rw [optionsData, hexpress, hverdict, List.append_assoc]
  rfl

/-! ## The conditions of validity (R60) -/

theorem hasManagementSlot_iff (p : Plan) : p.hasManagementSlot = true ↔ ∃ k, k < p.length ∧ k < 256 ∧ p.owner k = .management := by
  unfold Plan.hasManagementSlot
  simp only [List.any_eq_true, beq_iff_eq, exists_eq_right, List.mem_take_iff_getElem, Vector.length_toList, Vector.getElem_toList]
  constructor
  · rintro ⟨k, hk, howner⟩
    have hk' : k < 256 := by omega
    exact ⟨k, by omega, hk', (owner_eq_get p hk').trans howner⟩
  · rintro ⟨k, hlength, hk, howner⟩
    exact ⟨k, by omega, (owner_eq_get p hk).symm.trans howner⟩

theorem rangesDisjoint_comm (a b : Tag) : rangesDisjoint a b = rangesDisjoint b a := by
  unfold rangesDisjoint
  exact decide_eq_decide.mpr or_comm

theorem rangesOk_iff (p : Plan) :
    p.rangesOk = true ↔
      ∀ i j : Trib, i < j → p.entries[j].tagBase.toNat + 64 ≤ p.entries[i].tagBase.toNat
        ∨ p.entries[i].tagBase.toNat + 64 ≤ p.entries[j].tagBase.toNat := by
  have hpairs : p.rangesOk = true ↔ ∀ i j : Trib, i ≠ j → rangesDisjoint p.entries[i].tagBase p.entries[j].tagBase = true := by
    unfold Plan.rangesOk
    simp only [List.all_eq_true, mem_allTribs, forall_const, Bool.or_eq_true, beq_iff_eq, or_iff_not_imp_left]
  rw [hpairs]
  constructor
  · intro h i j hij
    exact (of_decide_eq_true (h i j (Fin.ne_of_lt hij))).symm
  · intro h i j hij
    obtain hlt | hgt := Fin.lt_or_lt_of_ne hij
    · exact decide_eq_true (h i j hlt).symm
    · rw [rangesDisjoint_comm]
      exact decide_eq_true (h j i hgt).symm

theorem expressOk_iff (p : Plan) : p.expressOk = true ↔ ∀ n : Trib, p.express = some n → p.entries[n].borrow = true := by
  unfold Plan.expressOk
  cases p.express <;> simp

section Verdict

variable {p : Plan}

theorem verdict_of_noManagementSlot (h : p.hasManagementSlot = false) : verdictOf p = (1, 1) := by
  simp only [verdictOf, Plan.fault, h]
  rfl

theorem verdict_of_tagOverlap (hslot : p.hasManagementSlot = true) (h : p.rangesOk = false) : verdictOf p = (1, 2) := by
  simp only [verdictOf, Plan.fault, hslot, h]
  rfl

theorem verdict_of_expressNoBorrow (hslot : p.hasManagementSlot = true) (hranges : p.rangesOk = true) (h : p.expressOk = false) :
    verdictOf p = (1, 3) := by
  simp only [verdictOf, Plan.fault, hslot, hranges, h]
  rfl

theorem verdict_of_valid (hslot : p.hasManagementSlot = true) (hranges : p.rangesOk = true) (hexpress : p.expressOk = true) :
    verdictOf p = (0, 0) := by
  simp only [verdictOf, Plan.fault, hslot, hranges, hexpress]
  rfl

end Verdict

/-- Settles O48: each read completes with the bytes of its data; the verdict is that of the first condition that fails. -/
theorem planReadsReportThePlan : Obligations.PlanReadsReportThePlan := by
  unfold Obligations.PlanReadsReportThePlan
  intro c rest s p
  refine ⟨fun hready => ?_, fun hready => ?_, fun hready => ?_⟩
  · have hexec : exec .readSlots s = .next (workReadSlots c (beginCommand rest s)) := exec_of_ready hready rfl
    constructor
    · intro hp hone hmost hrange
      rw [workReadSlots_of_range hp (slotRangeOk_iff.mpr ⟨hone, hmost, hrange⟩)] at hexec
      exact ⟨_, answers_complete hexec rfl, slotCodes_length hrange _, fun k hk => byteAt_slotCodes hrange hk _⟩
    · intro hbad
      rw [workReadSlots_of_bad (by rw [Ne, slotRangeOk_iff]; omega)] at hexec
      exact answers_complete hexec rfl
  · have hexec : exec .readTributaryEntry s = .next (workReadTributaryEntry c (beginCommand rest s)) := exec_of_ready hready rfl
    constructor
    · intro n hp hn
      rw [workReadTributaryEntry_of_entry hp hn] at hexec
      exact answers_complete hexec rfl
    · intro hbad
      rw [workReadTributaryEntry_of_bad hbad] at hexec
      exact answers_complete hexec rfl
  · have hexec : exec .readPlanOptions s = .next (workReadPlanOptions c (beginCommand rest s)) := exec_of_ready hready rfl
    constructor
    · intro hp
      rw [workReadPlanOptions_of_plan hp, optionsData_eq] at hexec
      refine ⟨_, _, answers_complete hexec rfl, fun hnone => ?_, fun hsome => ?_⟩
      · have hslot : s.plans.plan[p].hasManagementSlot = false := Bool.eq_false_iff.mpr fun h => by
          obtain ⟨k, hlength, hk, howner⟩ := (hasManagementSlot_iff _).mp h
          exact hnone k hlength hk howner
        exact Prod.ext_iff.mp (verdict_of_noManagementSlot hslot)
      · have hslot := (hasManagementSlot_iff _).mpr hsome
        refine ⟨fun ⟨i, j, hij, hbelow, habove⟩ => ?_, fun hranges hborrow => ?_, fun hranges ⟨n, hn, hborrow⟩ => ?_⟩
        · have hoverlap : s.plans.plan[p].rangesOk = false := Bool.eq_false_iff.mpr fun h => by
            have := (rangesOk_iff _).mp h i j hij
            omega
          exact Prod.ext_iff.mp (verdict_of_tagOverlap hslot hoverlap)
        · exact Prod.ext_iff.mp (verdict_of_valid hslot ((rangesOk_iff _).mpr hranges) ((expressOk_iff _).mpr hborrow))
        · have hexpress : s.plans.plan[p].expressOk = false := Bool.eq_false_iff.mpr fun h => by
            rw [(expressOk_iff _).mp h n hn] at hborrow
            cases hborrow
          exact Prod.ext_iff.mp (verdict_of_expressNoBorrow hslot ((rangesOk_iff _).mpr hranges) hexpress)
    · intro hbad
      rw [workReadPlanOptions_of_bad hbad] at hexec
      exact answers_complete hexec rfl

end Sys2Proof.Proofs.Plans
end

section
/-! PROOFS. SWITCH PLAN, judged by its cases in order or left PENDING, and CONFIRM PLAN (R71, R76, R133, R136). -/

namespace Sys2Proof.Proofs.Plans

open Sys2Proof.Machine Sys2Proof.Safety Sys2Proof.Laws Sys2Proof.Claims Sys2Proof.Proofs.CellStore

/-! ## SWITCH PLAN -/

section SwitchPlan

variable {c : TakenCommand} {target : PlanId} {mode : SwitchMode} {u : State}

/-- The mode operands as SWITCH PLAN carries them (R71). -/
theorem modeOf_of_operands {operands : List Byte}
    (h : match mode with
      | .firm => byteAt operands 1 = 0
      | .trial window => byteAt operands 1 = 1 ∧ wordAt operands 2 = window.toNat ∧ window ≠ 0) :
    modeOf operands = some mode := by
  cases mode with
  | firm =>
    have hflag : flagOf (byteAt operands 1) = some false := by rw [h]; rfl
    simp only [modeOf, hflag]
  | trial window =>
    obtain ⟨hbyte, hwindow, hne⟩ := h
    have hflag : flagOf (byteAt operands 1) = some true := by rw [hbyte]; rfl
    have hzero : window.toNat ≠ 0 := fun e => hne (BitVec.eq_of_toNat_eq e)
    simp only [modeOf, hflag, hwindow, hzero, if_false, BitVec.ofNat_toNat, BitVec.setWidth_eq]

theorem modeOf_of_bad {operands : List Byte}
    (h : 1 < (byteAt operands 1).toNat ∨ byteAt operands 1 = 1 ∧ wordAt operands 2 = 0) : modeOf operands = none := by
  obtain hflag | ⟨hbyte, hwindow⟩ := h
  · simp only [modeOf, flagOf_of_gt hflag]
  · have hflag : flagOf (byteAt operands 1) = some true := by rw [hbyte]; rfl
    simp only [modeOf, hflag, hwindow, if_true]

theorem workSwitchPlan_of_bad
    (h : 1 < (byteAt c.operands 0).toNat ∨ 1 < (byteAt c.operands 1).toNat ∨ byteAt c.operands 1 = 1 ∧ wordAt c.operands 2 = 0) :
    workSwitchPlan c u = complete c .range [] u := by
  unfold workSwitchPlan
  split
  · next hp hmode =>
    obtain hplan | hbad := h
    · rw [planOf_of_gt hplan] at hp
      cases hp
    · rw [modeOf_of_bad hbad] at hmode
      cases hmode
  · rfl

theorem isTrial_iff (w : SwitchState) : w.isTrial = true ↔ ∃ r f, w = .trial r f := by
  cases w <;> simp [SwitchState.isTrial]

theorem workSwitchPlan_of_state (htarget : planOf (byteAt c.operands 0) = some target) (hmode : modeOf c.operands = some mode)
    (h : target = u.plans.run ∨ ∃ r f, u.plans.switch = .trial r f) :
    workSwitchPlan c u = complete c .state [byteOf u.plans.run.val, switchCode u.plans] u := by
  simp only [workSwitchPlan, htarget, hmode, ← planPosition_eq]
  obtain hrun | htrial := h
  · simp only [hrun, if_true, ite_self]
  · rw [if_pos ((isTrial_iff _).mpr htrial)]

theorem isTrial_of_not {w : SwitchState} (h : ∀ r f, w ≠ .trial r f) : ¬w.isTrial = true := fun htrial => by
  obtain ⟨r, f, hw⟩ := (isTrial_iff w).mp htrial
  exact h r f hw

/-- A SWITCH PLAN to a plan that does not run, outside a trial, is refused when its target is invalid (R71). -/
theorem workSwitchPlan_of_invalid (htarget : planOf (byteAt c.operands 0) = some target) (hmode : modeOf c.operands = some mode)
    (hother : target ≠ u.plans.run) (htrial : ∀ r f, u.plans.switch ≠ .trial r f) {reason : InvalidReason}
    (hfault : u.plans.plan[target].fault = some reason) : workSwitchPlan c u = complete c .invalidPlan [reason.code] u := by
  simp only [workSwitchPlan, htarget, hmode, hfault]
  rw [if_neg (isTrial_of_not htrial), if_neg hother]

/-- A SWITCH PLAN that passes its checks stands PENDING (R71, R136). -/
theorem workSwitchPlan_of_valid (htarget : planOf (byteAt c.operands 0) = some target) (hmode : modeOf c.operands = some mode)
    (hother : target ≠ u.plans.run) (htrial : ∀ r f, u.plans.switch ≠ .trial r f) (hfault : u.plans.plan[target].fault = none) :
    workSwitchPlan c u = startSwitch c target mode u := by
  simp only [workSwitchPlan, htarget, hmode, hfault]
  rw [if_neg (isTrial_of_not htrial), if_neg hother]

end SwitchPlan

/-- Settles O49: the cases of R71 in order, the last of which leaves the command in progress with its entry reserved. -/
theorem switchPlanIsJudgedThenPending : Obligations.SwitchPlanIsJudgedThenPending := by
  unfold Obligations.SwitchPlanIsJudgedThenPending
  intro c rest s hready
  have hexec : exec .switchPlan s = .next (workSwitchPlan c (beginCommand rest s)) := exec_of_ready hready rfl
  refine ⟨fun hbad => ?_, fun target mode hplan hmodeOperands => ⟨fun hstate => ?_, fun hother htrial => ⟨fun reason hfault => ?_,
    fun hvalid => ?_⟩⟩⟩
  · rw [workSwitchPlan_of_bad hbad] at hexec
    exact answers_complete hexec rfl
  all_goals
    have htarget : planOf (byteAt c.operands 0) = some target := by rw [hplan, planOf_byteOf]
    have hmode : modeOf c.operands = some mode := modeOf_of_operands hmodeOperands
  · have hwork := workSwitchPlan_of_state (u := beginCommand rest s) htarget hmode hstate
    rw [hwork] at hexec
    exact answers_complete hexec rfl
  · have hwork := workSwitchPlan_of_invalid (u := beginCommand rest s) htarget hmode hother htrial hfault
    rw [hwork] at hexec
    exact answers_complete hexec rfl
  · have hwork := workSwitchPlan_of_valid (u := beginCommand rest s) htarget hmode hother htrial hvalid
    rw [hwork] at hexec
    obtain ⟨hcommands, -, hplaced, hreserved, hstored, hlast⟩ := beginCommand_engine rest s
    exact ⟨_, hexec, hcommands, rfl, hreserved, hplaced, hstored, hlast⟩

/-! ## CONFIRM PLAN -/

theorem workConfirmPlan_of_trial {u : State} {r : BitVec 16} {f : PlanId} (h : u.plans.switch = .trial r f) (c : TakenCommand) :
    workConfirmPlan c u = complete c .ok (bytes16 r.toNat) { u with plans := { u.plans with switch := .steady } } := by
  simp only [workConfirmPlan, h]

theorem workConfirmPlan_of_steady {u : State} (h : u.plans.switch = .steady) (c : TakenCommand) :
    workConfirmPlan c u = complete c .state [byteOf u.plans.run.val, 0] u := by
  have hcode : switchCode u.plans = 0 := by simp only [switchCode, h]
  simp only [workConfirmPlan, h, planPosition_eq, hcode]

/-- Settles O50: a trial ends with the cycles it had left as data, and STEADY has none to end. -/
theorem confirmPlanEndsTrial : Obligations.ConfirmPlanEndsTrial := by
  unfold Obligations.ConfirmPlanEndsTrial
  intro c rest s hready
  have hexec : exec .confirmPlan s = .next (workConfirmPlan c (beginCommand rest s)) := exec_of_ready hready rfl
  constructor
  · intro r f htrial
    have hwork := workConfirmPlan_of_trial (u := beginCommand rest s) htrial c
    rw [hwork] at hexec
    exact answers_complete hexec rfl
  · intro hsteady
    have hwork := workConfirmPlan_of_steady (u := beginCommand rest s) hsteady c
    rw [hwork] at hexec
    exact answers_complete hexec rfl

end Sys2Proof.Proofs.Plans
end

section
/-! PROOFS. The boundary at which the plan store acts: the switch, a trial cycle counted, and the revert, beside the survey in each order
(R73 to R75, R147, R173). -/

namespace Sys2Proof.Proofs.Plans

open Sys2Proof.Machine Sys2Proof.Safety Sys2Proof.Laws Sys2Proof.Claims Sys2Proof.Proofs.CellStore

/-! ## The plan store's part as one change of the state -/

/-- The plan store has taken a boundary: the plan store and the engine are as given, the survey is told by `report`, and the notice list and
the counters are as `posting` leaves them. -/
def planTaken (ps : PlanStore) (e : Engine) (report : Survey → Survey) (posting : State → State) (u : State) : State :=
  { u with
    plans := ps
    engine := e
    survey := report u.survey
    notices := (posting u).notices
    bank := (posting u).bank
    scheduler := { u.scheduler with due := { u.scheduler.due with plan := false } } }

theorem reportPlanChange_eq (s : State) : reportPlanChange s = { s with survey := planReported s.survey } := by
  unfold reportPlanChange planReported
  split <;> rfl

/-- A plan change posted and reported, over a state whose notice list and counters are those of a given one. -/
theorem reportPlanChange_post {kind : NoticeKind} {subject detail : Byte} {s t : State} (hn : t.notices = s.notices)
    (hb : t.bank = s.bank) :
    reportPlanChange (post kind subject detail t) =
      { t with
        survey := planReported t.survey
        notices := (post kind subject detail s).notices
        bank := (post kind subject detail s).bank } := by
  rw [reportPlanChange_eq, post_of_same hn hb]

theorem switchPlans_of_inProgress {s : State} {c : TakenCommand} (h : s.engine.inProgress = some c) (target : PlanId) (mode : SwitchMode) :
    switchPlans target mode s =
      complete c .ok [byteOf target.val, mode.code]
        (reportPlanChange (post .planSwitched (byteOf target.val) mode.code { s with plans := installed s.plans target mode })) := by
  simp only [switchPlans, h]
  rfl

/-- What a completion makes of the engine depends on the engine alone. -/
theorem complete_engine_congr {s t : State} (h : t.engine = s.engine) (c : TakenCommand) (r : Result) (d : List Byte) :
    (complete c r d t).engine = (complete c r d s).engine := by
  simp only [complete, h]

theorem plansTakeBoundary_switches {u : State} {target : PlanId} {mode : SwitchMode} {c : TakenCommand}
    (hdue : u.scheduler.due.plan = true) (hswitch : u.plans.switch = .pending target mode) (hprogress : u.engine.inProgress = some c) :
    plansTakeBoundary u =
      planTaken (installed u.plans target mode) (complete c .ok [byteOf target.val, mode.code] u).engine planReported
        (post .planSwitched (byteOf target.val) mode.code) u := by
  have hposted := reportPlanChange_post (kind := .planSwitched) (subject := byteOf target.val) (detail := mode.code) (s := u)
    (t := { plansTaken u with plans := installed (plansTaken u).plans target mode }) rfl rfl
  rw [plansTakeBoundary_of_pending hdue hswitch, switchPlans_of_inProgress (by exact hprogress), hposted]
  rfl

theorem plansTakeBoundary_reverts {u : State} {remaining : BitVec 16} {fallback : PlanId} (hdue : u.scheduler.due.plan = true)
    (hswitch : u.plans.switch = .trial remaining fallback) (hlast : remaining.toNat ≤ 1) :
    plansTakeBoundary u =
      planTaken { u.plans with run := fallback, switch := .steady } u.engine planReported
        (post .planReverted (byteOf fallback.val) (byteOf u.plans.run.val)) u :=
  (plansTakeBoundary_of_last hdue hswitch hlast).trans (reportPlanChange_post rfl rfl)

theorem plansTakeBoundary_counts {u : State} {remaining : BitVec 16} {fallback : PlanId} (hdue : u.scheduler.due.plan = true)
    (hswitch : u.plans.switch = .trial remaining fallback) (hmore : 2 ≤ remaining.toNat) :
    plansTakeBoundary u = planTaken { u.plans with switch := .trial (remaining - 1) fallback } u.engine id id u :=
  plansTakeBoundary_of_more hdue hswitch hmore

/-! ## The survey's part -/

theorem completes_iff (v : Survey) : v.completes = true ↔ WindowEnds v := by
  simp [Survey.completes, WindowEnds, and_assoc]

theorem afterBoundary_eq (v : Survey) : v.afterBoundary = boundaryTaken v := by
  unfold Survey.afterBoundary boundaryTaken
  cases hstate : v.state with
  | running =>
    have hends : v.completes = true ↔ v.window ≠ 0 ∧ saturate16 v.cycles = v.window := by simp [completes_iff, WindowEnds, hstate]
    simp only [hends]
  | idle | armed | done => rfl

/-- The survey has taken a boundary, but for its posting. -/
def surveyTaken (u : State) : State :=
  { u with
    survey := boundaryTaken u.survey
    scheduler := { u.scheduler with due := { u.scheduler.due with survey := false } } }

theorem surveyCountsBoundary_of_due {u : State} (h : u.scheduler.due.survey = true) : surveyCountsBoundary u = surveyTaken u := by
  rw [surveyCountsBoundary_eq, if_pos h, afterBoundary_eq]
  rfl

/-! ## Postings in either order -/

/-- Two states agree in the notice list and the counters. -/
def SamePosts (s t : State) : Prop := t.notices = s.notices ∧ t.bank = s.bank

theorem SamePosts.trans {s t u : State} (h : SamePosts s t) (k : SamePosts t u) : SamePosts s u := ⟨k.1.trans h.1, k.2.trans h.2⟩

/-- What a posting leaves in the notice list and the counters depends on them alone. -/
def PostsAlone (posting : State → State) : Prop := ∀ s t, SamePosts s t → SamePosts (posting s) (posting t)

theorem postsAlone_post (kind : NoticeKind) (subject detail : Byte) : PostsAlone (post kind subject detail) :=
  fun _ _ h => ⟨post_notices_congr h.1, post_bank_congr h.1 h.2⟩

theorem postsAlone_id : PostsAlone id := fun _ _ h => h

/-! ## The plan store and the survey take a boundary -/

/-- From the plans and the engine of a state the plan store takes a boundary as given. -/
def TakesAs (ps : PlanStore) (e : Engine) (report : Survey → Survey) (posting : State → State) (s : State) : Prop :=
  ∀ u, u.plans = s.plans → u.engine = s.engine → u.scheduler.due.plan = true → plansTakeBoundary u = planTaken ps e report posting u

/-- The blocks a boundary never touches stand (R82). -/
def Untouched (s t : State) : Prop :=
  t.store = s.store ∧ t.ports = s.ports ∧ t.channels = s.channels ∧ t.links = s.links ∧ t.pins = s.pins ∧ t.pending = s.pending

/-- A boundary taken by the plan store, and by the survey unless it is late: all of it but the postings. -/
structure Took (ps : PlanStore) (e : Engine) (v : Survey) (late : Bool) (s t : State) : Prop where
  plans : t.plans = ps
  engine : t.engine = e
  survey : t.survey = v
  scheduler : t.scheduler = { s.scheduler with due := { s.scheduler.due with plan := false, survey := late } }
  untouched : Untouched s t

/-- A posting of the survey after the boundary is taken is none of what `Took` says. -/
theorem Took.posted {ps : PlanStore} {e : Engine} {v : Survey} {late : Bool} {s t : State} (h : Took ps e v late s t) (before : State) :
    Took ps e v late s (postSurveyDone before t) := by
  obtain ⟨hplans, hengine, hsurvey, hscheduler, huntouched⟩ := h
  exact ⟨by simp [hplans], by simp [hengine], by simp [hsurvey], by simp [hscheduler], by simpa [Untouched] using huntouched⟩

/-- A posting of the survey before the boundary is taken is none of what `Took` says. -/
theorem Took.of_posted {ps : PlanStore} {e : Engine} {v : Survey} {late : Bool} {before s t : State}
    (h : Took ps e v late (postSurveyDone before s) t) : Took ps e v late s t := by
  obtain ⟨hplans, hengine, hsurvey, hscheduler, huntouched⟩ := h
  exact ⟨hplans, hengine, hsurvey, by simpa using hscheduler, by simpa [Untouched] using huntouched⟩

section Taking

variable {ps : PlanStore} {e : Engine} {report : Survey → Survey} {posting : State → State} {s u : State}

theorem took_plans (htakes : TakesAs ps e report posting s) (hplans : u.plans = s.plans) (hengine : u.engine = s.engine)
    (hdue : u.scheduler.due = { scheduler := false, plan := true, notices := true, survey := true }) :
    Took ps e (report u.survey) true u (plansTakeBoundary u) ∧ SamePosts (posting u) (plansTakeBoundary u) := by
  rw [htakes u hplans hengine (by rw [hdue])]
  refine ⟨⟨rfl, rfl, rfl, ?_, rfl, rfl, rfl, rfl, rfl, rfl⟩, rfl, rfl⟩
  simp [planTaken, hdue]

theorem took_surveyFirst (htakes : TakesAs ps e report posting s) (hposting : PostsAlone posting) (hplans : u.plans = s.plans)
    (hengine : u.engine = s.engine) (hdue : u.scheduler.due = { scheduler := false, plan := true, notices := true, survey := true }) :
    Took ps e (report (boundaryTaken u.survey)) false u (plansTakeBoundary (surveyCountsBoundary u))
      ∧ SamePosts (posting u) (plansTakeBoundary (surveyCountsBoundary u)) := by
  rw [surveyCountsBoundary_of_due (by rw [hdue]), htakes (surveyTaken u) hplans hengine (by simp [surveyTaken, hdue])]
  refine ⟨⟨rfl, rfl, rfl, ?_, rfl, rfl, rfl, rfl, rfl, rfl⟩, hposting u (surveyTaken u) ⟨rfl, rfl⟩⟩
  simp [planTaken, surveyTaken, hdue]

theorem took_surveyLast (htakes : TakesAs ps e report posting s) (hplans : u.plans = s.plans)
    (hengine : u.engine = s.engine) (hdue : u.scheduler.due = { scheduler := false, plan := true, notices := true, survey := true }) :
    Took ps e (boundaryTaken (report u.survey)) false u (surveyCountsBoundary (plansTakeBoundary u))
      ∧ SamePosts (posting u) (surveyCountsBoundary (plansTakeBoundary u)) := by
  rw [htakes u hplans hengine (by rw [hdue]), surveyCountsBoundary_of_due (by simp [planTaken, hdue])]
  refine ⟨⟨rfl, rfl, rfl, ?_, rfl, rfl, rfl, rfl, rfl, rfl⟩, rfl, rfl⟩
  simp [planTaken, surveyTaken, hdue]

end Taking

/-- The plan store and the survey in one step post what each posts, in the order of the turn (R147). -/
theorem samePosts_planAndSurvey {turn : Turn} {posting taking : State → State} {s u : State} (hposting : PostsAlone posting)
    (htaking : ∀ v, v.plans = u.plans → v.engine = u.engine → v.scheduler = u.scheduler → SamePosts (posting v) (taking v))
    (hu : SamePosts s u) (hdue : u.scheduler.due.survey = true) (hsurvey : u.survey = s.survey) :
    (WindowEnds s.survey → SamePosts (bothPosted turn (post .surveyDone 0 0) posting s) (planAndSurvey turn taking u))
      ∧ (¬WindowEnds s.survey → SamePosts (posting s) (planAndSurvey turn taking u)) := by
  have hdone : ∀ v, postSurveyDone u v = if u.survey.completes then post .surveyDone 0 0 v else v := fun v => by
    simp only [postSurveyDone, hdue, Bool.true_and]
  rw [← hsurvey, ← completes_iff]
  constructor
  · intro hends
    have hpost : postSurveyDone u = post .surveyDone 0 0 := funext fun v => (hdone v).trans (if_pos hends)
    have hsurveyDone := postsAlone_post .surveyDone 0 0
    rw [planAndSurvey, hpost]
    cases turn with
    | first => exact (hposting _ _ (hsurveyDone _ _ hu)).trans (htaking _ (by simp) (by simp) (by simp))
    | last => exact hsurveyDone _ _ ((hposting _ _ hu).trans (htaking u rfl rfl rfl))
  · intro hends
    have hpost : postSurveyDone u = id := funext fun v => (hdone v).trans (if_neg hends)
    have htook : SamePosts (posting s) (taking u) := (hposting _ _ hu).trans (htaking u rfl rfl rfl)
    rw [planAndSurvey, hpost]
    cases turn with
    | first => exact htook
    | last => exact htook

/-! ## The whole boundary (R82) -/

/-- The survey after a boundary, by when it takes it beside a plan store that reports to it by `report` (R173). -/
def surveyAt (turn : SurveyTurn) (report : Survey → Survey) (v : Survey) : Survey :=
  match turn with
  | .alone => boundaryTaken v
  | .beforePlan => report (boundaryTaken v)
  | .afterPlan => boundaryTaken (report v)
  | .late => report v

theorem surveyAtSwitch_eq (turn : SurveyTurn) (v : Survey) : surveyAt turn planReported v = surveyAtSwitch turn v := by
  cases turn <;> rfl

/-- The part as the scheduler begins to deliver a boundary: position 0 and one cycle more (R81, R82). -/
def begun (s : State) : State :=
  { s with
    scheduler :=
      { s.scheduler with
        position := 0
        cycle := s.scheduler.cycle + 1
        due := { s.scheduler.due with scheduler := false } } }

/-- The postings of a boundary, in the terms of the statements, before the notice list takes it. -/
def PostedAt (order : BoundaryOrder) (posting : State → State) (s u : State) : Prop :=
  (WindowEnds s.survey → (order.survey = .beforePlan ∨ order.survey = .afterPlan) →
      SamePosts (bothPosted order.surveyPost (post .surveyDone 0 0) posting s) u)
    ∧ (¬WindowEnds s.survey ∨ order.survey = .late → SamePosts (posting s) u)

/-- The plan store and the survey take a boundary in one step, in the order of `taking` (R147, R173). -/
theorem took_planAndSurvey {order : BoundaryOrder} {ps : PlanStore} {e : Engine} {f : Survey → Survey} {posting taking : State → State}
    {s : State} (hlate : order.survey ≠ .late) (hdue : (begun s).scheduler.due.survey = true) (hposting : PostsAlone posting)
    (htaking : ∀ w : State, w.plans = s.plans → w.engine = s.engine → w.scheduler = (begun s).scheduler →
      Took ps e (f w.survey) false w (taking w) ∧ SamePosts (posting w) (taking w)) :
    Took ps e (f s.survey) false (begun s) (planAndSurvey order.surveyPost taking (begun s))
      ∧ PostedAt order posting s (planAndSurvey order.surveyPost taking (begun s)) := by
  constructor
  · refine postBeside_cases ?_ ?_
    · obtain ⟨htook, -⟩ := htaking (postSurveyDone (begun s) (begun s)) (by simp [begun]) (by simp [begun]) (by simp)
      rw [show (postSurveyDone (begun s) (begun s)).survey = s.survey by simp [begun]] at htook
      exact htook.of_posted
    · exact (htaking (begun s) rfl rfl rfl).1.posted _
  · obtain ⟨hends, hgoes⟩ := samePosts_planAndSurvey (turn := order.surveyPost) (s := s) (u := begun s) hposting
      (fun w hplans hengine hw => (htaking w hplans hengine hw).2) ⟨rfl, rfl⟩ hdue rfl
    exact ⟨fun h _ => hends h, fun h => hgoes (h.resolve_right hlate)⟩

/-- A boundary delivered is what the plan store and the survey make of it, then the notice list's taking unless it is left. -/
theorem boundaryEvent_took {order : BoundaryOrder} {ps : PlanStore} {e : Engine} {report : Survey → Survey} {posting : State → State}
    {s : State} (hcomes : BoundaryComes s) (hsurvey : order.survey ≠ .alone) (htakes : TakesAs ps e report posting s)
    (hposting : PostsAlone posting) :
    ∃ u, boundaryEvent order s = (if order.noticesLate then id else noticesTakeBoundary) u
      ∧ Took ps e (surveyAt order.survey report s.survey) (order.survey == .late) (begun s) u ∧ PostedAt order posting s u := by
  obtain ⟨-, hdue⟩ := hcomes
  have hscheduler : s.scheduler.due.scheduler = true := by rw [hdue]
  have hbegun : (begun s).scheduler.due = { scheduler := false, plan := true, notices := true, survey := true } := by
    simp [begun, hdue]
  unfold boundaryEvent
  cases hturn : order.survey with
  | alone => exact absurd hturn hsurvey
  | beforePlan =>
    obtain ⟨htook, hposted⟩ := took_planAndSurvey (order := order) (f := fun v => report (boundaryTaken v)) (by simp [hturn])
      (by rw [hbegun]) hposting fun w hplans hengine hw => took_surveyFirst htakes hposting hplans hengine (hw ▸ hbegun)
    exact ⟨_, deliverBoundary_of_due hscheduler _ _, htook, hposted⟩
  | afterPlan =>
    obtain ⟨htook, hposted⟩ := took_planAndSurvey (order := order) (f := fun v => boundaryTaken (report v)) (by simp [hturn])
      (by rw [hbegun]) hposting fun w hplans hengine hw => took_surveyLast htakes hplans hengine (hw ▸ hbegun)
    exact ⟨_, deliverBoundary_of_due hscheduler _ _, htook, hposted⟩
  | late =>
    obtain ⟨htook, hposts⟩ := took_plans (u := begun s) htakes rfl rfl hbegun
    have hposted : SamePosts (posting s) (plansTakeBoundary (begun s)) := (hposting s (begun s) ⟨rfl, rfl⟩).trans hposts
    exact ⟨_, deliverBoundary_of_due hscheduler _ _, htook, fun _ h => absurd h (by simp [hturn]), fun _ => hposted⟩

theorem tick_eq (r : NoticeRecord) : r.tick = timed r := by
  unfold NoticeRecord.tick timed
  cases r.state <;> rfl

/-- The notice list after the boundary: each record timed, or none where it takes the boundary later (R155). -/
theorem settled_notices {u : State} (hdue : u.scheduler.due.notices = true) (noticesLate : Bool) :
    ((if noticesLate then id else noticesTakeBoundary) u).notices = timedUnless noticesLate u.notices := by
  cases noticesLate with
  | true => rfl
  | false =>
    have hticks : u.notices.records.map NoticeRecord.tick = u.notices.records.map timed := List.map_congr_left fun r _ => tick_eq r
    simp [noticesTakeBoundary, hdue, timedUnless, hticks]

/-- The notice list's own taking of a boundary reaches nothing but its records and its due flag. -/
theorem settled_leaves (noticesLate : Bool) (u : State) :
    Untouched u ((if noticesLate then id else noticesTakeBoundary) u)
      ∧ ((if noticesLate then id else noticesTakeBoundary) u).plans = u.plans
      ∧ ((if noticesLate then id else noticesTakeBoundary) u).engine = u.engine
      ∧ ((if noticesLate then id else noticesTakeBoundary) u).survey = u.survey
      ∧ ((if noticesLate then id else noticesTakeBoundary) u).bank = u.bank
      ∧ ((if noticesLate then id else noticesTakeBoundary) u).scheduler =
        { u.scheduler with due := { u.scheduler.due with notices := noticesLate && u.scheduler.due.notices } } := by
  cases noticesLate with
  | true => simp [Untouched]
  | false => simp [Untouched, noticesTakeBoundary_leaves]

/-- A whole boundary, from how the plan store takes it (R73 to R75, R82, R147, R155, R173). -/
theorem exec_boundary {order : BoundaryOrder} {ps : PlanStore} {e : Engine} {report : Survey → Survey} {posting : State → State}
    {s : State} (hcomes : BoundaryComes s) (hsurvey : order.survey ≠ .alone) (htakes : TakesAs ps e report posting s)
    (hposting : PostsAlone posting) :
    ∃ t, exec (.cycleBoundary order) s = .next t ∧ BoundaryDelivered order s t ∧ t.plans = ps ∧ t.engine = e
      ∧ SwitchPosted order posting s t ∧ t.survey = surveyAt order.survey report s.survey := by
  obtain ⟨u, hevent, htook, hends, hgoes⟩ := boundaryEvent_took hcomes hsurvey htakes hposting
  obtain ⟨hrun, hdue⟩ := hcomes
  obtain ⟨hplans, hengine, hv, hscheduler, huntouched⟩ := htook
  obtain ⟨⟨hstore, hports, hchannels, hlinks, hpins, hpending⟩, tplans, tengine, tsurvey, tbank, tscheduler⟩ :=
    settled_leaves order.noticesLate u
  have hnotices := settled_notices (u := u) (by simp [hscheduler, begun, hdue]) order.noticesLate
  obtain ⟨ustore, uports, uchannels, ulinks, upins, upending⟩ := huntouched
  refine ⟨_, congrArg Host.Outcome.next ((whileRunning_of_running hrun _).trans hevent), ⟨?_, hstore.trans ustore, hports.trans uports,
    hchannels.trans uchannels, hlinks.trans ulinks, hpins.trans upins, hpending.trans upending⟩, tplans.trans hplans,
    tengine.trans hengine, ⟨fun h hturn => ?_, fun h => ?_⟩, tsurvey.trans hv⟩
  · rw [tscheduler, hscheduler]
    simp [begun, hdue]
  · obtain ⟨unotices, ubank⟩ := hends h hturn
    exact ⟨hnotices.trans (congrArg _ unotices), tbank.trans ubank⟩
  · obtain ⟨unotices, ubank⟩ := hgoes h
    exact ⟨hnotices.trans (congrArg _ unotices), tbank.trans ubank⟩

/-! ## The switch, the count and the revert -/

theorem takesAs_switch {target : PlanId} {mode : SwitchMode} {c : TakenCommand} {s : State}
    (hswitch : s.plans.switch = .pending target mode) (hprogress : s.engine.inProgress = some c) :
    TakesAs (installed s.plans target mode) (complete c .ok [byteOf target.val, mode.code] s).engine planReported
      (post .planSwitched (byteOf target.val) mode.code) s := fun u hplans hengine hdue => by
  rw [plansTakeBoundary_switches hdue (hplans ▸ hswitch) (hengine ▸ hprogress), hplans, complete_engine_congr hengine]

theorem takesAs_revert {remaining : BitVec 16} {fallback : PlanId} {s : State} (hswitch : s.plans.switch = .trial remaining fallback)
    (hlast : remaining.toNat ≤ 1) :
    TakesAs { s.plans with run := fallback, switch := .steady } s.engine planReported
      (post .planReverted (byteOf fallback.val) (byteOf s.plans.run.val)) s := fun u hplans hengine hdue => by
  rw [plansTakeBoundary_reverts hdue (hplans ▸ hswitch) hlast, hplans, hengine]

theorem takesAs_count {remaining : BitVec 16} {fallback : PlanId} {s : State} (hswitch : s.plans.switch = .trial remaining fallback)
    (hmore : 2 ≤ remaining.toNat) :
    TakesAs { s.plans with switch := .trial (remaining - 1) fallback } s.engine id id s := fun u hplans hengine hdue => by
  rw [plansTakeBoundary_counts hdue (hplans ▸ hswitch) hmore, hplans, hengine]

/-- Settles O36: the plan store's part is the switch, which completes SWITCH PLAN, and the rest of the boundary goes round it in the order
named. -/
theorem boundarySwitchesPlan : Obligations.BoundarySwitchesPlan := by
  unfold Obligations.BoundarySwitchesPlan
  intro order target mode c s hcomes hsurvey hswitch hprogress
  obtain ⟨t, hexec, hdelivered, hplans, hengine, hposted, hv⟩ :=
    exec_boundary hcomes hsurvey (takesAs_switch hswitch hprogress) (postsAlone_post _ _ _)
  obtain ⟨hcommands, hidle, hplaced, hreserved, hstored, hlast⟩ := complete_engine c .ok [byteOf target.val, mode.code] s
  rw [← hengine] at hcommands hidle hplaced hreserved hstored hlast
  rw [surveyAtSwitch_eq] at hv
  refine ⟨t, hexec, ?_, hdelivered, ?_, hlast, ?_, hv⟩
  · cases mode <;> exact hplans
  · cases mode <;> exact ⟨hcommands, hidle, hreserved, hplaced, hstored⟩
  · cases mode <;> exact hposted

/-- The revert taken by the plan store alone, from position 0 (R75). -/
theorem exec_planReverted {fallback : PlanId} {s : State} (hcomes : BoundaryComes s) (hswitch : s.plans.switch = .trial 1 fallback) :
    exec .planReverted s =
      .next
        (planTaken { s.plans with run := fallback, switch := .steady } s.engine planReported
          (post .planReverted (byteOf fallback.val) (byteOf s.plans.run.val))
          { s with scheduler := { s.scheduler with position := 0 } }) := by
  obtain ⟨hrun, hdue⟩ := hcomes
  have hplan : s.scheduler.due.plan = true := by rw [hdue]
  have hreverts : s.plans.reverts = true := by simp [PlanStore.reverts, hswitch]
  refine congrArg Host.Outcome.next ((whileRunning_of_running hrun _).trans ?_)
  simp only [revertEvent, hplan, hreverts, Bool.and_self, if_true]
  exact takesAs_revert hswitch (by decide) _ rfl rfl hplan

/-- Settles O37: the plan store's part is the count or the revert, within the boundary or on its own. -/
theorem trialCountsDownAndReverts : Obligations.TrialCountsDownAndReverts := by
  unfold Obligations.TrialCountsDownAndReverts
  intro remaining fallback s hcomes hswitch
  refine ⟨fun order hsurvey => ?_, fun hone => ?_⟩
  · obtain hmore | hlast := Nat.lt_or_ge 1 remaining.toNat
    · obtain ⟨t, hexec, hdelivered, hplans, hengine, -, -⟩ := exec_boundary hcomes hsurvey (takesAs_count hswitch hmore) postsAlone_id
      refine ⟨t, hexec, hdelivered, hengine, fun _ => hplans, fun hone => ?_⟩
      subst hone
      exact absurd hmore (by decide)
    · obtain ⟨t, hexec, hdelivered, hplans, hengine, hposted, hv⟩ :=
        exec_boundary hcomes hsurvey (takesAs_revert hswitch hlast) (postsAlone_post _ _ _)
      rw [surveyAtSwitch_eq] at hv
      exact ⟨t, hexec, hdelivered, hengine, fun hmore => absurd hmore (by omega),
        fun _ => ⟨hplans, hposted, hv⟩⟩
  · subst hone
    have hposts := postsAlone_post .planReverted (byteOf fallback.val) (byteOf s.plans.run.val) s
      { s with scheduler := { s.scheduler with position := 0 } } ⟨rfl, rfl⟩
    exact ⟨_, exec_planReverted hcomes hswitch, rfl, hposts.1, hposts.2, rfl, rfl, rfl, rfl, rfl, rfl, rfl, rfl⟩

end Sys2Proof.Proofs.Plans
end

section
/-! PROOFS. The borrowing decision: the best of a set of tributaries, who is a candidate and who qualifies above the top (R93 to R95). -/

namespace Sys2Proof.Proofs.SlotScheduler

open Sys2Proof.Machine Sys2Proof.Claims Sys2Proof.Proofs.CellLink

/-! ## The order of candidates (R94) -/

theorem order_of_express {p : Plan} {n : Trib} (h : p.express = some n) : order p n = 8 * p.entries[n].rank.val + n.val := by
  simp [order, h]

theorem order_of_other {p : Plan} {n : Trib} (h : p.express ≠ some n) : order p n = 64 + (8 * p.entries[n].rank.val + n.val) := by
  simp [order, h, Nat.add_assoc]

/-- The express tributary is below 64 in the order, and every other one from 64 on. -/
theorem order_lt_iff (p : Plan) (n : Trib) : order p n < 64 ↔ p.express = some n := by
  by_cases h : p.express = some n
  · refine iff_of_true ?_ h
    rw [order_of_express h]
    omega
  · refine iff_of_false ?_ h
    rw [order_of_other h]
    omega

/-- The comparison of R94 is that of its one number. -/
theorem better_eq (p : Plan) (c b : Trib) : better p c b = decide (order p c < order p b) := by
  have hc := order_lt_iff p c
  have hb := order_lt_iff p b
  unfold better
  split
  · next hexpress =>
    by_cases hsame : c = b
    · simp [← hsame, hexpress]
    · have hother : p.express ≠ some b := fun h => hsame (Option.some.inj (hexpress.symm.trans h))
      have hlt : order p c < order p b := by
        rw [← hc] at hexpress
        rw [Ne, ← hb] at hother
        omega
      simp [hlt, hother]
  · next hplain =>
    split
    · next hexpress =>
      have hle : ¬order p c < order p b := by
        rw [← hc] at hplain
        rw [← hb] at hexpress
        omega
      simp [hle]
    · next hother =>
      rw [order_of_other hplain, order_of_other hother, decide_eq_decide, Fin.lt_def, Fin.lt_def, Fin.ext_iff]
      omega

theorem order_injective (p : Plan) : Function.Injective (order p) := fun c b h => by
  have hc := order_lt_iff p c
  have hb := order_lt_iff p b
  by_cases hexpress : p.express = some c
  · exact Option.some.inj (hexpress.symm.trans (hb.mp (h ▸ hc.mpr hexpress)))
  · have hother : p.express ≠ some b := fun hb' => hexpress (hc.mp (h ▸ hb.mpr hb'))
    rw [order_of_other hexpress, order_of_other hother] at h
    exact Fin.ext (by omega)

theorem best_eq_none {p : Plan} {cs : List Trib} (h : best p cs = none) : cs = [] := by
  cases cs with
  | nil => rfl
  | cons c cs =>
    unfold best at h
    split at h
    · cases h
    · split at h <;> cases h

/-- The best of a set is one of it that none comes before (R94). -/
theorem best_least {p : Plan} {cs : List Trib} {b : Trib} (h : best p cs = some b) : b ∈ cs ∧ ∀ d ∈ cs, order p b ≤ order p d := by
  induction cs generalizing b with
  | nil => cases h
  | cons c cs ih =>
    unfold best at h
    cases hbest : best p cs with
    | none =>
      simp only [hbest] at h
      obtain rfl := Option.some.inj h
      simp [best_eq_none hbest]
    | some a =>
      obtain ⟨ha, hleast⟩ := ih hbest
      simp only [hbest, better_eq, decide_eq_true_eq] at h
      split at h
      · next hbefore =>
        obtain rfl := Option.some.inj h
        exact ⟨List.mem_cons_of_mem c ha, List.forall_mem_cons.mpr ⟨hbefore.le, hleast⟩⟩
      · next hafter =>
        obtain rfl := Option.some.inj h
        exact ⟨List.mem_cons_self, List.forall_mem_cons.mpr ⟨le_rfl, fun d hd => (Nat.le_of_not_lt hafter).trans (hleast d hd)⟩⟩

/-- One of a set that none comes before is its best (R94). -/
theorem best_eq_some {p : Plan} {cs : List Trib} {c : Trib} (hc : c ∈ cs) (hleast : ∀ d ∈ cs, order p c ≤ order p d) :
    best p cs = some c := by
  cases hbest : best p cs with
  | none => exact absurd hc (by simp [best_eq_none hbest])
  | some b =>
    obtain ⟨hb, hbefore⟩ := best_least hbest
    rw [order_injective p (Nat.le_antisymm (hbefore c hc) (hleast b hb))]

/-! ## The decision (R93, R95) -/

theorem isCandidate_iff {s : State} {n : Trib} : isCandidate s n = true ↔ Candidate s n := by
  simp [isCandidate, Candidate, and_assoc]

theorem qualifies_iff {p : Plan} {h c : Trib} : qualifies p h c = true ↔ Qualifies p h c := by
  simp [qualifies, Qualifies, and_assoc]

/-- The candidates for spare slots, in number order (R93). -/
def candidates (s : State) : List Trib := allTribs.filter (isCandidate s)

theorem mem_candidates {s : State} {n : Trib} : n ∈ candidates s ↔ Candidate s n := by
  simp [candidates, mem_allTribs, isCandidate_iff]

theorem mem_qualified {s : State} {h n : Trib} :
    n ∈ (candidates s).filter (qualifies s.plans.running h) ↔ Candidate s n ∧ Qualifies s.plans.running h n := by
  simp [mem_candidates, qualifies_iff]

theorem borrowDecision_of_empty {s : State} (h : s.scheduler.borrow = []) :
    borrowDecision s = (best s.plans.running (candidates s)).toList := by
  simp only [borrowDecision, h, candidates]

theorem borrowDecision_of_top {s : State} {h : Trib} {below : List Trib} (hborrow : s.scheduler.borrow = h :: below) :
    borrowDecision s =
      (best s.plans.running ((candidates s).filter (qualifies s.plans.running h))).toList ++ h :: below := by
  simp only [borrowDecision, hborrow, candidates]
  split
  · next hbest => rw [hbest]; rfl
  · next hbest => rw [hbest]; rfl

/-- The decision pushes a candidate or leaves the stack as it is. -/
theorem borrowDecision_cases (s : State) :
    borrowDecision s = s.scheduler.borrow ∨ ∃ c, Candidate s c ∧ borrowDecision s = c :: s.scheduler.borrow := by
  cases hborrow : s.scheduler.borrow with
  | nil =>
    rw [borrowDecision_of_empty hborrow]
    cases hbest : best s.plans.running (candidates s) with
    | none => exact .inl rfl
    | some c => exact .inr ⟨c, mem_candidates.mp (best_least hbest).1, rfl⟩
  | cons h below =>
    rw [borrowDecision_of_top hborrow]
    cases hbest : best s.plans.running ((candidates s).filter (qualifies s.plans.running h)) with
    | none => exact .inl rfl
    | some c => exact .inr ⟨c, (mem_qualified.mp (best_least hbest).1).1, rfl⟩

/-- Settles O33: the decision is the best of the candidates, or of those that qualify, and a candidate that none comes before is that
best. -/
theorem borrowingDecisionPushesBest : Obligations.BorrowingDecisionPushesBest := by
  unfold Obligations.BorrowingDecisionPushesBest
  intro s
  refine ⟨fun hempty hnone => ?_, fun hempty c hc hleast => ?_, fun h below hborrow => ⟨fun hnone => ?_, fun c hc hq hleast => ?_⟩⟩
  · have hno : candidates s = [] := List.eq_nil_iff_forall_not_mem.mpr fun c hc => hnone c (mem_candidates.mp hc)
    rw [borrowDecision_of_empty hempty, hno]
    rfl
  · rw [borrowDecision_of_empty hempty, best_eq_some (mem_candidates.mpr hc) fun d hd => hleast d (mem_candidates.mp hd)]
    rfl
  · have hno : (candidates s).filter (qualifies s.plans.running h) = [] := List.eq_nil_iff_forall_not_mem.mpr fun c hc => by
      obtain ⟨hcandidate, hqualifies⟩ := mem_qualified.mp hc
      exact hnone c hcandidate hqualifies
    rw [borrowDecision_of_top hborrow, hno]
    rfl
  · rw [borrowDecision_of_top hborrow, best_eq_some (mem_qualified.mpr ⟨hc, hq⟩) fun d hd => ?_]
    · rfl
    · obtain ⟨hcandidate, hqualifies⟩ := mem_qualified.mp hd
      exact hleast d hcandidate hqualifies

end Sys2Proof.Proofs.SlotScheduler
end

section
/-! PROOFS. What each slot sends: the abandon cell owed, a response or a notice, the cell of the top holder, or the idle cell (R84 to R89,
R96, R153, R154). -/

namespace Sys2Proof.Proofs.SlotScheduler

open Sys2Proof.Machine Sys2Proof.Claims Sys2Proof.Proofs.CellLink Sys2Proof.Proofs.CellStore

/-! ## A slot from its decision -/

/-- A slot carries what is decided for it, when the decision moves no block but the store, the engine, the notice list, the counters and
the scheduler's two lists (R83, R103). -/
theorem slot_of_decision {o : Owner} {d : Decision} {s : State} {store : CellStore} {engine : Engine} {notices : NoticeList}
    {bank : CounterBank} {borrow : List Trib} {abandon : List AbandonEntry} (hcomes : SlotComes o s) (hd : decideSlot o s = d)
    (hstate : d.state =
      { s with
        store := store
        engine := engine
        notices := notices
        bank := bank
        scheduler := { s.scheduler with borrow := borrow, abandon := abandon } }) :
    ∃ t, exec .slot s = .next t ∧ SlotCarries d.cell d.kind s t ∧ t.store = store ∧ t.engine = engine ∧ t.notices = notices
      ∧ t.bank = bank ∧ t.scheduler.borrow = borrow ∧ t.scheduler.abandon = abandon := by
  have hexec := exec_slot_of_comes hcomes
  obtain ⟨-, hdue, -⟩ := hcomes
  have htaken : d.state.scheduler.due.survey = false := by
    rw [hstate]
    dsimp only
    rw [hdue]
    rfl
  obtain ⟨hstore, hengine, hnotices, hbank, hborrow, habandon⟩ := carrySlot_rest htaken s.plans.running.length
  rw [hstate] at hstore hengine hnotices hbank hborrow habandon
  rw [hd] at hexec
  refine ⟨_, hexec, ?_, hstore, hengine, hnotices, hbank, hborrow, habandon⟩
  refine slotCarries_carrySlot hdue (borrow := borrow) (abandon := abandon) ?_ ?_ ?_ ?_ ?_ ?_ ?_ ?_ <;> rw [hstate]

/-! ## Which notice is offered (R153, R154) -/

theorem eligible_of_offerable {r : NoticeRecord} {interval : Byte}
    (h : r.state = .waiting ∨ ∃ timer, r.state = .sent timer ∧ interval.toNat ≤ timer.toNat) : r.eligible interval = true := by
  unfold NoticeRecord.eligible
  obtain h | ⟨timer, h, hreached⟩ := h
  · rw [h]
  · rw [h]
    exact decide_eq_true hreached

theorem not_eligible_of_sent {r : NoticeRecord} {interval : Byte}
    (h : ∃ timer, r.state = .sent timer ∧ timer.toNat < interval.toNat) : r.eligible interval = false := by
  obtain ⟨timer, h, hearly⟩ := h
  unfold NoticeRecord.eligible
  rw [h]
  exact decide_eq_false (Nat.not_le.mpr hearly)

theorem offerNotice_of_none {interval : Byte} {records : List NoticeRecord} (h : ∀ r ∈ records, r.eligible interval = false) :
    offerNotice interval records = none := by
  induction records with
  | nil => rfl
  | cons r rs ih =>
    obtain ⟨hr, hrs⟩ := List.forall_mem_cons.mp h
    simp [offerNotice, hr, ih hrs]

/-- The oldest eligible record is offered and stays in its place (R153, R154). -/
theorem offerNotice_of_oldest {interval : Byte} {before after : List NoticeRecord} {r : NoticeRecord}
    (hbefore : ∀ x ∈ before, x.eligible interval = false) (hr : r.eligible interval = true) :
    offerNotice interval (before ++ r :: after) = some (r, before ++ { r with state := .sent 0 } :: after) := by
  induction before with
  | nil => simp [offerNotice, hr]
  | cons x xs ih =>
    obtain ⟨hx, hxs⟩ := List.forall_mem_cons.mp hbefore
    simp [offerNotice, hx, ih hxs]

/-! ## MANAGEMENT slots -/

theorem responseCell_eq (r : Response) : r.cell = responseCell r := by
  have hresult : r.result.code = resultByte r.result := by cases r.result <;> rfl
  simp only [Response.cell, Response.payload, hresult]
  rfl

theorem noticeCell_eq (r : NoticeRecord) : r.cell = noticeCell r := by
  have hkind : byteOf r.kind.code = noticeByte r.kind := by cases r.kind <;> rfl
  simp only [NoticeRecord.cell, NoticeRecord.payload, hkind]
  rfl

/-- A repeat is counted both as a response and as a repeat (R89, R166). -/
theorem countResponse_eq (r : Response) (m : ManagementCounters) :
    countResponse r m =
      { m with responsesSent := m.responsesSent + 1, repeatsSent := m.repeatsSent + (if r.repeated then 1 else 0) } := by
  unfold countResponse
  cases r.repeated with
  | true => rfl
  | false => simp [ManagementCounters.bumpResponses]

theorem decideManagement_of_response {s : State} {r : Response} {rest : List Response} (h : s.engine.placed = r :: rest) :
    decideManagement s =
      { kind := .management
        cell := responseCell r
        state := countManagement (countResponse r) { s with engine := { s.engine with placed := rest } } } := by
  simp only [decideManagement, h, responseCell_eq]

theorem decideManagement_of_notice {s : State} {r : NoticeRecord} {records : List NoticeRecord} (hplaced : s.engine.placed = [])
    (h : offerNotice s.notices.interval s.notices.records = some (r, records)) :
    decideManagement s =
      { kind := .management
        cell := noticeCell r
        state := countManagement .bumpNotices { s with notices := { s.notices with records := records } } } := by
  simp only [decideManagement, hplaced, h, noticeCell_eq]

/-- Settles O32: each of the two decisions of a MANAGEMENT slot, carried. -/
theorem managementSlotSendsResponseThenNotice : Obligations.ManagementSlotSendsResponseThenNotice := by
  unfold Obligations.ManagementSlotSendsResponseThenNotice
  intro s hcomes
  constructor
  · intro r rest hplaced
    obtain ⟨t, hexec, hcarries, hstore, hengine, hnotices, hbank, hborrow, habandon⟩ :=
      slot_of_decision hcomes (decideManagement_of_response hplaced) rfl
    exact ⟨t, hexec, hcarries, hengine, hbank.trans (by rw [countResponse_eq]), hstore, hnotices, habandon, hborrow⟩
  · intro before after r hplaced hrecords hbefore hr
    have hoffer := offerNotice_of_oldest (after := after) (fun x hx => not_eligible_of_sent (hbefore x hx)) (eligible_of_offerable hr)
    rw [← hrecords] at hoffer
    obtain ⟨t, hexec, hcarries, hstore, hengine, hnotices, hbank, hborrow, habandon⟩ :=
      slot_of_decision hcomes (decideManagement_of_notice hplaced hoffer) rfl
    exact ⟨t, hexec, hcarries, hnotices, hbank, hstore, hengine, habandon, hborrow⟩

/-! ## Abandon cells (R84 to R86, R88) -/

theorem decideOwn_of_found {n : Trib} {e : AbandonEntry} {s : State}
    (h : (s.scheduler.abandon.find? fun x => x.trib == n) = some e) : decideOwn n s = sendAbandon e (s.scheduler.abandon.erase e) s := by
  simp only [decideOwn, h]

/-- The oldest entry of a tributary is found, and it is the one that leaves, from wherever it stands. -/
theorem decideOwn_of_owed {before after : List AbandonEntry} {e : AbandonEntry} {s : State}
    (h : s.scheduler.abandon = before ++ e :: after) (hbefore : ∀ x ∈ before, x.trib ≠ e.trib) :
    decideOwn e.trib s = sendAbandon e (before ++ after) s := by
  have hfind : (s.scheduler.abandon.find? fun x => x.trib == e.trib) = some e := by
    rw [h, List.find?_append, List.find?_eq_none.mpr fun x hx => by simpa using hbefore x hx]
    simp
  have herase : s.scheduler.abandon.erase e = before ++ after := by
    rw [h, List.erase_append_right _ fun he => hbefore e he rfl, List.erase_cons_head]
  rw [decideOwn_of_found hfind, herase]

theorem decideOwn_of_nothing {n : Trib} {s : State} (howed : ∀ e ∈ s.scheduler.abandon, e.trib ≠ n) (h : s.store.up[n].cells = []) :
    decideOwn n s = decideSpare s := by
  have hfind : (s.scheduler.abandon.find? fun e => e.trib == n) = none :=
    List.find?_eq_none.mpr fun e he => by simpa using howed e he
  simp only [decideOwn, hfind, Laws.takeUp_eq_none.mpr h]

theorem decideManagement_of_nothing {s : State} (hplaced : s.engine.placed = [])
    (h : offerNotice s.notices.interval s.notices.records = none) : decideManagement s = decideSpare s := by
  simp only [decideManagement, hplaced, h]

/-- A slot that falls spare is decided as one, whatever its kind (R84 to R86). -/
theorem decideSlot_of_spare {s : State} (h : SpareSlot s) : ∃ o, SlotComes o s ∧ decideSlot o s = decideSpare s := by
  obtain hopen | ⟨n, hown, howed, hcells⟩ | ⟨hmanagement, hplaced, hrecords⟩ := h
  · exact ⟨.openSlot, hopen, rfl⟩
  · exact ⟨.trib n, hown, decideOwn_of_nothing howed hcells⟩
  · have hnone := offerNotice_of_none fun r hr => not_eligible_of_sent (hrecords r hr)
    exact ⟨.management, hmanagement, decideManagement_of_nothing hplaced hnone⟩

theorem decideSpare_of_owed {e : AbandonEntry} {rest : List AbandonEntry} {s : State} (h : s.scheduler.abandon = e :: rest) :
    decideSpare s = sendAbandon e rest s := by
  simp only [decideSpare, h]

/-- Settles O31: an own slot and a spare slot of any kind decide to send the abandon cell, and a slot carries what is decided. -/
theorem abandonCellIsSentFirst : Obligations.AbandonCellIsSentFirst := by
  unfold Obligations.AbandonCellIsSentFirst
  intro before after e s habandon hslot
  have hdecided : ∃ o, SlotComes o s ∧ decideSlot o s = sendAbandon e (before ++ after) s := by
    obtain ⟨hcomes, hbefore⟩ | ⟨hspare, rfl⟩ := hslot
    · exact ⟨.trib e.trib, hcomes, decideOwn_of_owed habandon hbefore⟩
    · obtain ⟨o, hcomes, ho⟩ := decideSlot_of_spare hspare
      exact ⟨o, hcomes, ho.trans (decideSpare_of_owed habandon)⟩
  obtain ⟨o, hcomes, hd⟩ := hdecided
  obtain ⟨t, hexec, hcarries, hstore, hengine, hnotices, hbank, hborrow, hleft⟩ := slot_of_decision hcomes hd rfl
  exact ⟨t, hexec, hcarries, hleft, hborrow, hbank, hstore, hengine, hnotices⟩

/-! ## Spare slots (R86, R96) -/

/-- The part with the stack the borrowing decision leaves (R95). -/
def lent (s : State) : State := { s with scheduler := { s.scheduler with borrow := borrowDecision s } }

/-- With no abandon cell owed and someone on top a spare slot is the take of the top holder, if it has a cell (R96). -/
theorem decideSpare_of_stack {n : Trib} {below : List Trib} {s : State} (howed : s.scheduler.abandon = [])
    (htop : borrowDecision s = n :: below) :
    decideSpare s =
      ((takeUp n (lent s)).map fun taken => { kind := .borrowed n, cell := taken.1, state := afterSend n taken.1 taken.2 }).getD
        { kind := .idle, cell := idleCell, state := lent s } := by
  unfold decideSpare lent
  rw [howed]
  dsimp only
  split
  · next hnone => cases hnone.symm.trans htop
  · next m _ hm =>
    obtain ⟨rfl, -⟩ := List.cons.inj (hm.symm.trans htop)
    split
    · next htake => rw [htake]; rfl
    · next htake => rw [htake]; rfl

theorem decideSpare_of_top {n : Trib} {below : List Trib} {c : Cell} {rest : List Cell} {s : State} (howed : s.scheduler.abandon = [])
    (htop : borrowDecision s = n :: below) (hcells : s.store.up[n].cells = c :: rest) :
    decideSpare s = { kind := .borrowed n, cell := c, state := sentUp n c rest (lent s) } := by
  have htake : takeUp n (lent s) = _ := takeUp_of_cells hcells
  rw [decideSpare_of_stack howed htop, htake]
  rfl

theorem decideSpare_of_empty {n : Trib} {below : List Trib} {s : State} (howed : s.scheduler.abandon = [])
    (htop : borrowDecision s = n :: below) (hcells : s.store.up[n].cells = []) :
    decideSpare s = { kind := .idle, cell := idleCell, state := lent s } := by
  have htake : takeUp n (lent s) = none := Laws.takeUp_eq_none.mpr hcells
  rw [decideSpare_of_stack howed htop, htake]
  rfl

theorem decideSpare_of_idle {s : State} (howed : s.scheduler.abandon = []) (h : borrowDecision s = []) :
    decideSpare s = { kind := .idle, cell := idleCell, state := lent s } := by
  simp only [decideSpare, howed, h, lent]

theorem sentUp_eq (n : Trib) (c : Cell) (rest : List Cell) (s : State) :
    sentUp n c rest s =
      { s with
        store := (sentUp n c rest s).store
        scheduler :=
          { s.scheduler with
            borrow := if c.position = .last ∨ c.position = .sole then s.scheduler.borrow.filter fun m => m != n
              else s.scheduler.borrow } } := by
  simp only [sentUp, afterSend_eq]
  rfl

/-- Settles O34: a spare slot decides on the top holder's cell or on the idle cell, and carries it. -/
theorem spareSlotServesTopHolder : Obligations.SpareSlotServesTopHolder := by
  unfold Obligations.SpareSlotServesTopHolder
  intro s hspare howed
  obtain ⟨o, hcomes, hd⟩ := decideSlot_of_spare hspare
  constructor
  · intro n below c rest htop hcells
    obtain ⟨t, hexec, hcarries, hstore, hengine, hnotices, hbank, hborrow, habandon⟩ :=
      slot_of_decision hcomes (hd.trans (decideSpare_of_top howed htop hcells)) (sentUp_eq n c rest (lent s))
    exact ⟨t, hexec, hcarries, hstore.trans (takenForTrunk_sentUp n c rest (lent s)), habandon.trans howed,
      hborrow.trans (by simp only [lent, htop]), hengine, hnotices, hbank⟩
  · intro hidle
    obtain ⟨t, hexec, hcarries, hstore, hengine, hnotices, hbank, hborrow, habandon⟩ :=
      slot_of_decision hcomes (hd.trans (decideSpare_of_idle howed hidle)) rfl
    exact ⟨t, hexec, hcarries, hstore, habandon.trans howed, hborrow.trans hidle, hengine, hnotices, hbank⟩

end Sys2Proof.Proofs.SlotScheduler
end

section
/-! PROOFS. The law of the borrow stack and the abandon list: what each move of an uplink queue makes of the holders and of the abandon cells
owed (R27, R28, R90, R92, R95 to R98). -/

namespace Sys2Proof.Proofs.SlotScheduler

open Sys2Proof.Machine Sys2Proof.Safety Sys2Proof.Laws Sys2Proof.Claims Sys2Proof.Proofs.CellLink Sys2Proof.Proofs.CellStore

/-! ## The view of the lending -/

/-- What the law of the borrow stack and the abandon list reads: the uplink queues and the two lists. -/
structure LendingView where
  up : Vector UpQueue 8
  borrow : List Trib
  abandon : List AbandonEntry

def lendingView (s : State) : LendingView :=
  { up := s.store.up, borrow := s.scheduler.borrow, abandon := s.scheduler.abandon }

theorem lendingView_of_leaves {s t : State} (hup : t.store.up = s.store.up) (hscheduler : t.scheduler = s.scheduler) :
    lendingView t = lendingView s := by
  simp only [lendingView, hup, hscheduler]

/-- Each holder has a complete head message that has started, each abandon entry a head message that has not, and neither list repeats a
tributary; that the complete-message count is true is what leaves a candidate a cell to send (R25, R90, R92). -/
structure LendingView.Ok (v : LendingView) : Prop where
  counted : ∀ n : Trib, v.up[n].complete = countEnds v.up[n].cells
  holders : v.borrow.Nodup
  held : ∀ n ∈ v.borrow, 1 ≤ v.up[n].complete ∧ v.up[n].head.isSome = true
  owed : (v.abandon.map AbandonEntry.trib).Nodup
  unstarted : ∀ e ∈ v.abandon, v.up[e.trib].head = none

theorem lendingOk_of_schedulerOk {s : State} (hu : UplinkOk s) (h : SchedulerOk s) : (lendingView s).Ok := by
  obtain ⟨holders, held, owed, unstarted⟩ := h
  exact ⟨fun n => (hu n).2, holders, held, owed, unstarted⟩

theorem LendingView.Ok.schedulerOk {s : State} (h : (lendingView s).Ok) : SchedulerOk s := ⟨h.holders, h.held, h.owed, h.unstarted⟩

/-- A started head message is owed no abandon cell yet (R90). -/
theorem LendingView.Ok.not_owed {v : LendingView} (h : v.Ok) {n : Trib} (hn : v.up[n].head ≠ none) :
    n ∉ v.abandon.map AbandonEntry.trib := by
  intro hmem
  obtain ⟨e, he, rfl⟩ := List.mem_map.mp hmem
  exact hn (h.unstarted e he)

/-! ## Moves of one queue -/

section Moves

variable {v : LendingView} {n : Trib}

/-- A queue moves, and the lists with it: the law asks of the other tributaries what it asked, and of this one what it asks. -/
theorem LendingView.Ok.moved (h : v.Ok) {q : UpQueue} {borrow : List Trib} {abandon : List AbandonEntry}
    (counted : q.complete = countEnds q.cells) (holders : borrow.Nodup) (others : ∀ m ∈ borrow, m ≠ n → m ∈ v.borrow)
    (held : n ∈ borrow → 1 ≤ q.complete ∧ q.head.isSome = true) (owed : (abandon.map AbandonEntry.trib).Nodup)
    (kept : ∀ e ∈ abandon, e.trib ≠ n → e ∈ v.abandon) (unstarted : ∀ e ∈ abandon, e.trib = n → q.head = none) :
    LendingView.Ok { up := v.up.set n q, borrow := borrow, abandon := abandon } where
  counted m := by
    dsimp only
    rw [get_set]
    split
    · exact counted
    · exact h.counted m
  holders := holders
  held m hm := by
    dsimp only
    rw [get_set]
    split
    · next hsame => exact held (hsame ▸ hm)
    · next hother => exact h.held m (others m hm hother)
  owed := owed
  unstarted e he := by
    dsimp only
    rw [get_set]
    split
    · next hsame => exact unstarted e he hsame
    · next hother => exact h.unstarted e (kept e he hother)

/-- A cell joins the tail: the head message stays what it was (R25). -/
theorem LendingView.Ok.push (h : v.Ok) (c : Cell) : LendingView.Ok { v with up := v.up.set n (v.up[n].push c) } := by
  refine h.moved ?_ h.holders (fun _ hm _ => hm) (fun hn => ?_) h.owed (fun _ he _ => he) fun e he hsame => hsame ▸ h.unstarted e he
  · rw [UpQueue.push, h.counted, countEnds_concat]
  · obtain ⟨hcomplete, hstarted⟩ := h.held n hn
    exact ⟨Nat.le_add_right_of_le hcomplete, hstarted⟩

/-- A queue is cut: its holder may leave the stack, and an abandon entry may be placed for a head message that had started and has no
bookkeeping left (R27, R28, R90). -/
theorem LendingView.Ok.cut (h : v.Ok) {q : UpQueue} {borrow : List Trib} {entry : Option AbandonEntry}
    (counted : q.complete = countEnds q.cells) (holders : borrow.Sublist v.borrow)
    (held : n ∈ borrow → 1 ≤ q.complete ∧ q.head.isSome = true) (cleared : v.up[n].head = none → q.head = none)
    (placed : ∀ e ∈ entry, e.trib = n ∧ v.up[n].head ≠ none ∧ q.head = none) :
    LendingView.Ok { up := v.up.set n q, borrow := borrow, abandon := v.abandon ++ entry.toList } := by
  have owed : ((v.abandon ++ entry.toList).map AbandonEntry.trib).Nodup := by
    cases entry with
    | none => simpa using h.owed
    | some e =>
      obtain ⟨rfl, hstarted, -⟩ := placed e rfl
      simpa using h.owed.concat (h.not_owed hstarted)
  refine h.moved counted (h.holders.sublist holders) (fun _ hm _ => holders.subset hm) held owed (fun e he hother => ?_)
    fun e he hsame => ?_
  · obtain he | he := List.mem_append.mp he
    · exact he
    · obtain ⟨hsame, -⟩ := placed e (Option.mem_toList.mp he)
      exact absurd hsame hother
  · obtain he | he := List.mem_append.mp he
    · exact cleared (hsame ▸ h.unstarted e he)
    · obtain ⟨-, -, hcleared⟩ := placed e (Option.mem_toList.mp he)
      exact hcleared

theorem headAfter_isSome (head : Option HeadMessage) (c : Cell) : (headAfter head c).isSome = !c.isEnd := by
  unfold headAfter Cell.isEnd
  cases c.position <;> rfl

/-- The head cell is taken from the queue of a tributary to which no abandon cell is owed, with the stack as the borrowing decision has left
it; a cell that ends its message takes the tributary off the stack (R26, R96, R97). -/
theorem LendingView.Ok.take (h : v.Ok) {c : Cell} {rest : List Cell} {borrow : List Trib} (hcells : v.up[n].cells = c :: rest)
    (howed : ∀ e ∈ v.abandon, e.trib ≠ n) (holders : borrow.Nodup) (others : ∀ m ∈ borrow, m ≠ n → m ∈ v.borrow)
    (complete : n ∈ borrow → 1 ≤ v.up[n].complete) :
    LendingView.Ok
      { v with
        up := v.up.set n (v.up[n].afterTake c rest)
        borrow := if c.isEnd then borrow.filter fun m => m != n else borrow } := by
  have counted : (v.up[n].afterTake c rest).complete = countEnds (v.up[n].afterTake c rest).cells := by
    simp only [UpQueue.afterTake]
    rw [h.counted, hcells, countEnds_cons, Nat.add_sub_cancel]
  have head : (v.up[n].afterTake c rest).head.isSome = !c.isEnd := headAfter_isSome _ c
  have unstarted : ∀ e ∈ v.abandon, e.trib = n → (v.up[n].afterTake c rest).head = none := fun e he hsame => absurd hsame (howed e he)
  cases hc : c.isEnd with
  | true =>
    refine h.moved counted (holders.filter _) (fun m hm => others m (List.mem_of_mem_filter hm)) (fun hn => ?_) h.owed
      (fun _ he _ => he) unstarted
    simp at hn
  | false =>
    refine h.moved counted holders others (fun hn => ⟨?_, by rw [head, hc]; rfl⟩) h.owed (fun _ he _ => he) unstarted
    simpa [UpQueue.afterTake, hc] using complete hn

end Moves

/-- Abandon entries may leave the list from anywhere (R88). -/
theorem LendingView.Ok.abandonSent {v : LendingView} (h : v.Ok) {abandon : List AbandonEntry} (hsub : abandon.Sublist v.abandon) :
    LendingView.Ok { v with abandon := abandon } :=
  ⟨h.counted, h.holders, h.held, h.owed.sublist (hsub.map _), fun e he => h.unstarted e (hsub.subset he)⟩

/-- With every queue empty and neither list holding anything the law holds. -/
theorem lendingOk_of_empty {v : LendingView} (hup : ∀ n : Trib, v.up[n] = .empty) (hborrow : v.borrow = []) (habandon : v.abandon = []) :
    v.Ok where
  counted n := by rw [hup]; rfl
  holders := by simp [hborrow]
  held := by simp [hborrow]
  owed := by simp [habandon]
  unstarted := by simp [habandon]

/-! ## Offers, cuts and arrivals from a tributary -/

/-- An event that keeps the law. -/
def KeepsLending (event : State → State) : Prop := ∀ s, (lendingView s).Ok → (lendingView (event s)).Ok

theorem keepsLending_of_view {event : State → State} (h : ∀ s, lendingView (event s) = lendingView s) : KeepsLending event :=
  fun s hs => by rwa [h s]

theorem KeepsLending.comp {f g : State → State} (hf : KeepsLending f) (hg : KeepsLending g) : KeepsLending fun s => f (g s) :=
  fun s hs => hf _ (hg s hs)

theorem keepsLending_postBeside {turn : Turn} {posting work : State → State} (hp : KeepsLending posting) (hw : KeepsLending work) :
    KeepsLending (postBeside turn posting work) :=
  fun s hs => postBeside_cases (motive := fun t => (lendingView t).Ok) (hw _ (hp s hs)) (hp _ (hw s hs))

theorem keepsLending_offerUp (n : Trib) (c : Cell) : KeepsLending (offerUp n c) := by
  intro s h
  by_cases hj : judgeUp n s = .admitted
  · have hview : lendingView (offerUp n c s) = { lendingView s with up := s.store.up.set n (s.store.up[n].push c) } := by
      simp [lendingView, offerUp_store_of_admitted hj]
    rw [hview]
    exact h.push c
  · have hview : lendingView (offerUp n c s) = lendingView s :=
      lendingView_of_leaves (by rw [offerUp_store_of_refused hj]) (by simp)
    rwa [hview]

/-- With nothing complete ahead its tributary holds no place on the stack, so a message open and started may be cut off its queue and owed
an abandon cell (R27, R90). -/
theorem keepsLending_cutOpen (n : Trib) (cause : CutCause) : KeepsLending (cutOpen n cause) := by
  intro s h
  simp only [lendingView, cutOpen_store, cutOpen_scheduler]
  refine h.cut (v := lendingView s) ?_ (List.Sublist.refl _) (fun hn => ?_) (fun hnone => ?_) fun e he => ?_
  · exact (h.counted n).trans (countEnds_completePart _).symm
  · obtain ⟨hcomplete, hstarted⟩ := h.held n hn
    have hne : s.store.up[n].complete ≠ 0 := Nat.one_le_iff_ne_zero.mp hcomplete
    exact ⟨hcomplete, by rwa [if_neg hne]⟩
  · dsimp only
    split
    · rfl
    · exact hnone
  · split at he
    · next hzero =>
      obtain ⟨m, hm, rfl⟩ := Option.map_eq_some_iff.mp he
      exact ⟨rfl, fun hnone => Option.some_ne_none m (hm.symm.trans hnone), if_pos hzero⟩
    · cases he

theorem keepsLending_cutAll (n : Trib) (cause : CutCause) : KeepsLending (cutAll n cause) := by
  intro s h
  simp only [lendingView, cutAll_store, cutAll_scheduler]
  refine h.cut (v := lendingView s) rfl List.filter_sublist (fun hn => ?_) (fun _ => rfl) fun e he => ?_
  · simp at hn
  · obtain ⟨m, hm, rfl⟩ := Option.map_eq_some_iff.mp he
    exact ⟨rfl, fun hnone => Option.some_ne_none m (hm.symm.trans hnone), rfl⟩

theorem keepsLending_setIngress (n : Trib) (i : Ingress) : KeepsLending (setIngress n i) := keepsLending_of_view fun _ => rfl

theorem keepsLending_tribArrival (n : Trib) (c : Cell) : KeepsLending (tribArrival n c) := fun _ h =>
  TributaryPorts.tribArrival_keeps (inv := fun s => (lendingView s).Ok) (fun _ _ h => h) (keepsLending_cutOpen n) (keepsLending_offerUp n)
    (fun _ _ h => h) c h

end Sys2Proof.Proofs.SlotScheduler
end

section
/-! PROOFS. Every step keeps the law of the borrow stack and the abandon list (R90, R92). -/

namespace Sys2Proof.Proofs.SlotScheduler

open Sys2Proof.Machine Sys2Proof.Safety Sys2Proof.Laws Sys2Proof.Claims Sys2Proof.Proofs.CellLink Sys2Proof.Proofs.CellStore

/-! ## Slots -/

theorem lendingView_sentUp (n : Trib) (c : Cell) (rest : List Cell) (s : State) :
    lendingView (sentUp n c rest s) =
      { lendingView s with
        up := s.store.up.set n (s.store.up[n].afterTake c rest)
        borrow := if c.isEnd then s.scheduler.borrow.filter fun m => m != n else s.scheduler.borrow } := by
  unfold sentUp afterSend
  split <;> rfl

/-- The decision leaves a stack of tributaries with a complete message, which repeats none and is, below its top, part of the stack before
(R93, R95). -/
theorem borrowDecision_sound {s : State} (h : (lendingView s).Ok) :
    (borrowDecision s).Nodup ∧ (∀ n ∈ borrowDecision s, 1 ≤ s.store.up[n].complete)
      ∧ ∀ n below, borrowDecision s = n :: below → ∀ m ∈ below, m ∈ s.scheduler.borrow := by
  obtain hstands | ⟨c, ⟨-, -, -, hnew, hcomplete⟩, hpushed⟩ := borrowDecision_cases s
  · rw [hstands]
    exact ⟨h.holders, fun n hn => (h.held n hn).1, fun n below hstack m hm => hstack ▸ List.mem_cons_of_mem n hm⟩
  · rw [hpushed]
    refine ⟨h.holders.cons hnew, List.forall_mem_cons.mpr ⟨hcomplete, fun n hn => (h.held n hn).1⟩, fun n below hstack m hm => ?_⟩
    obtain ⟨-, rfl⟩ := List.cons.inj hstack
    exact hm

theorem cells_of_complete {v : LendingView} (h : v.Ok) {n : Trib} (hn : 1 ≤ v.up[n].complete) :
    ∃ c rest, v.up[n].cells = c :: rest := by
  cases hcells : v.up[n].cells with
  | nil =>
    rw [h.counted, hcells] at hn
    exact absurd hn (by decide)
  | cons c rest => exact ⟨c, rest, rfl⟩

theorem lendingOk_sendAbandon {s : State} (h : (lendingView s).Ok) {abandon : List AbandonEntry} (hsub : abandon.Sublist s.scheduler.abandon)
    (e : AbandonEntry) : (lendingView (sendAbandon e abandon s).state).Ok := h.abandonSent hsub

/-- A spare slot takes only from a tributary with a complete message, on top of the stack, and only with no abandon cell owed (R86, R96). -/
theorem lendingOk_decideSpare {s : State} (h : (lendingView s).Ok) : (lendingView (decideSpare s).state).Ok := by
  cases howed : s.scheduler.abandon with
  | cons e rest =>
    rw [decideSpare_of_owed howed]
    exact lendingOk_sendAbandon h (howed ▸ List.sublist_cons_self e rest) e
  | nil =>
    obtain ⟨holders, complete, below⟩ := borrowDecision_sound h
    cases hstack : borrowDecision s with
    | nil =>
      have hempty : s.scheduler.borrow = [] := by
        obtain hstands | ⟨c, -, hpushed⟩ := borrowDecision_cases s
        · exact hstands.symm.trans hstack
        · cases hpushed.symm.trans hstack
      have hview : lendingView (lent s) = lendingView s := by simp [lendingView, lent, hstack, hempty]
      rw [decideSpare_of_idle howed hstack]
      dsimp only
      rwa [hview]
    | cons n stack =>
      have hn : 1 ≤ s.store.up[n].complete := complete n (hstack ▸ List.mem_cons_self)
      obtain ⟨c, rest, hcells⟩ := cells_of_complete h hn
      rw [decideSpare_of_top howed hstack hcells]
      dsimp only
      rw [lendingView_sentUp]
      refine h.take hcells (fun e he => ?_) holders (fun m hm hother => ?_) fun _ => hn
      · rw [show (lendingView s).abandon = [] from howed] at he
        cases he
      · have hm : m ∈ n :: stack := hstack ▸ hm
        exact below n stack hstack m ((List.mem_cons.mp hm).resolve_left hother)

/-- An own slot takes from a tributary that is owed no abandon cell, wherever it stands on the stack (R84, R97). -/
theorem lendingOk_decideOwn (n : Trib) {s : State} (h : (lendingView s).Ok) : (lendingView (decideOwn n s).state).Ok := by
  cases hfind : s.scheduler.abandon.find? fun e => e.trib == n with
  | some e =>
    rw [decideOwn_of_found hfind]
    exact lendingOk_sendAbandon h List.erase_sublist e
  | none =>
    have howed : ∀ e ∈ s.scheduler.abandon, e.trib ≠ n := fun e he => by simpa using List.find?_eq_none.mp hfind e he
    cases hcells : s.store.up[n].cells with
    | nil =>
      rw [decideOwn_of_nothing howed hcells]
      exact lendingOk_decideSpare h
    | cons c rest =>
      rw [decideOwn_of_cells howed hcells]
      dsimp only
      rw [lendingView_sentUp]
      exact h.take hcells howed h.holders (fun _ hm _ => hm) fun hn => (h.held n hn).1

theorem lendingOk_decideManagement {s : State} (h : (lendingView s).Ok) : (lendingView (decideManagement s).state).Ok := by
  unfold decideManagement
  split
  · exact h
  · split
    · exact h
    · exact lendingOk_decideSpare h

theorem lendingOk_decideSlot (o : Owner) {s : State} (h : (lendingView s).Ok) : (lendingView (decideSlot o s).state).Ok := by
  cases o with
  | trib n => exact lendingOk_decideOwn n h
  | management => exact lendingOk_decideManagement h
  | openSlot => exact lendingOk_decideSpare h

@[simp] theorem lendingView_surveyTakesBoundary (s : State) : lendingView (surveyTakesBoundary s) = lendingView s := by
  simp [lendingView, surveyTakesBoundary_leaves]

@[simp] theorem lendingView_noticesTakeBoundary (s : State) : lendingView (noticesTakeBoundary s) = lendingView s := by
  simp [lendingView, noticesTakeBoundary_leaves]

theorem lendingView_settleNotices (s : State) : lendingView (settleNotices s) = lendingView s := by
  unfold settleNotices
  split
  · rfl
  · exact lendingView_noticesTakeBoundary s

theorem lendingView_carrySlot (length : Nat) (d : Decision) : lendingView (carrySlot length d) = lendingView d.state := by
  have hadvance (s : State) : lendingView (advanceSlot length s) = lendingView s := by
    unfold advanceSlot
    split <;> rfl
  have hreport (s : State) : lendingView (reportSlot d.kind s) = lendingView s := lendingView_of_leaves (by simp) (by simp)
  rw [carrySlot, hadvance, hreport, lendingView_surveyTakesBoundary]
  rfl

theorem keepsLending_slotEvent : KeepsLending slotEvent := by
  intro s h
  unfold slotEvent
  split
  · exact h
  · dsimp only
    rw [lendingView_carrySlot]
    exact lendingOk_decideSlot _ (by rwa [lendingView_settleNotices])

theorem lendingView_cellTimeEvent (n : Trib) (s : State) : lendingView (cellTimeEvent n s) = lendingView s := by
  unfold cellTimeEvent
  split
  · split
    · next htake =>
      obtain ⟨rest, -, rfl⟩ := takeDown_eq_some htake
      rfl
    · rfl
  · rfl

/-! ## Boundaries -/

theorem lendingView_deliverBoundary {blocks : State → State} (h : ∀ s, lendingView (blocks s) = lendingView s) (noticesLate : Bool)
    (s : State) : lendingView (deliverBoundary noticesLate blocks s) = lendingView s := by
  unfold deliverBoundary
  dsimp only
  repeat' split
  · exact h _
  · exact (lendingView_noticesTakeBoundary _).trans (h _)
  · rfl

@[simp] theorem lendingView_plansTakeBoundary (s : State) : lendingView (plansTakeBoundary s) = lendingView s := by
  simp [lendingView, plansTakeBoundary_leaves]

@[simp] theorem lendingView_surveyCountsBoundary (s : State) : lendingView (surveyCountsBoundary s) = lendingView s := by
  simp [lendingView, surveyCountsBoundary_eq]

theorem lendingView_planAndSurvey {turn : Turn} {taking : State → State} (h : ∀ s, lendingView (taking s) = lendingView s) (s : State) :
    lendingView (planAndSurvey turn taking s) = lendingView s :=
  postBeside_leaves (fun _ => lendingView_of_leaves (by simp) (by simp)) h s

theorem lendingView_boundaryEvent (order : BoundaryOrder) (s : State) : lendingView (boundaryEvent order s) = lendingView s := by
  unfold boundaryEvent
  split
  · exact lendingView_surveyTakesBoundary s
  · exact lendingView_deliverBoundary (lendingView_planAndSurvey (by simp)) _ s
  · exact lendingView_deliverBoundary (lendingView_planAndSurvey (by simp)) _ s
  · exact lendingView_deliverBoundary lendingView_plansTakeBoundary _ s

theorem lendingView_revertEvent (s : State) : lendingView (revertEvent s) = lendingView s := by
  unfold revertEvent
  split
  · exact lendingView_plansTakeBoundary _
  · rfl

theorem lendingView_expiryEvent (s : State) : lendingView (expiryEvent s) = lendingView s := by
  unfold expiryEvent
  split
  · exact lendingView_noticesTakeBoundary s
  · rfl

theorem lendingView_surveyDoneEvent (s : State) : lendingView (surveyDoneEvent s) = lendingView s := by
  unfold surveyDoneEvent
  split
  · exact lendingView_surveyTakesBoundary s
  · rfl

/-! ## Ports -/

@[simp] theorem lendingView_closeDownlink (n : Trib) (s : State) : lendingView (closeDownlink n s) = lendingView s := rfl

theorem keepsLending_endIngress (n : Trib) : KeepsLending (endIngress n) := by
  intro s h
  unfold endIngress
  split
  · exact keepsLending_cutOpen n .linkLost s h
  · exact h
  · exact h

theorem keepsLending_flushUplink (n : Trib) : KeepsLending (flushUplink n) := by
  intro s h
  have cut := keepsLending_cutAll n .flushed s h
  unfold flushUplink
  dsimp only
  split
  · exact cut
  · exact cut
  · exact cut

theorem keepsLending_postStateChange (n : Trib) (before after : PortState) : KeepsLending (postStateChange n before after) :=
  keepsLending_of_view fun _ => lendingView_of_leaves (by simp) (by simp)

theorem keepsLending_portLockLost (turn : Turn) (n : Trib) : KeepsLending (portLockLost turn n) := by
  intro s h
  unfold portLockLost
  dsimp only
  split
  · exact keepsLending_postBeside (keepsLending_postStateChange n _ _)
      ((keepsLending_of_view (lendingView_closeDownlink n)).comp (keepsLending_endIngress n)) _ h
  · exact h

theorem keepsLending_disableTraffic (n : Trib) : KeepsLending (disableTraffic n) :=
  ((keepsLending_of_view (lendingView_closeDownlink n)).comp (keepsLending_setIngress n .idle)).comp (keepsLending_cutAll n .portDisabled)

theorem keepsLending_applyPortEntry (turn : Turn) (n : Trib) (e : PortEntry) : KeepsLending (applyPortEntry turn n e) := by
  intro s h
  have written : (lendingView (setTable (s.ports.table.set n e) s)).Ok := h
  unfold applyPortEntry
  dsimp only
  split
  · exact keepsLending_postBeside (keepsLending_postStateChange n _ _) (keepsLending_disableTraffic n) _ written
  · exact keepsLending_postBeside (keepsLending_postStateChange n _ _) (fun _ h => h) _ written

/-! ## Arrivals from the trunk -/

theorem offerDown_up (n : Trib) (c : Cell) (s : State) : (offerDown n c s).store.up = s.store.up := by
  by_cases hj : judgeDown n s = .admitted
  · rw [offerDown_store_of_admitted hj]
  · rw [offerDown_store_of_refused hj]

@[simp] theorem lendingView_offerDown (n : Trib) (c : Cell) (s : State) : lendingView (offerDown n c s) = lendingView s :=
  lendingView_of_leaves (offerDown_up n c s) (by simp)

theorem lendingView_closeGivenUp (tag : Tag) (s : State) : lendingView (closeGivenUp tag s) = lendingView s := by
  have hconversion (n : Trib) (channel : Channel) (next : Index) : lendingView (writeConversion n channel next s) = lendingView s := by
    unfold writeConversion
    split
    · split
      · exact lendingView_offerDown n _ s
      · exact lendingView_offerDown n _ s
    · rfl
  unfold closeGivenUp
  split
  · exact hconversion _ _ _
  all_goals rfl

theorem lendingView_startDown (tag : Tag) (c : Cell) (s : State) : lendingView (startDown tag c s) = lendingView s := by
  refine lendingView_of_leaves ?_ (by simp)
  unfold startDown
  dsimp only
  repeat' split
  all_goals simp [offerDown_up]

theorem lendingView_restartDown (tag : Tag) (c : Cell) (s : State) : lendingView (restartDown tag c s) = lendingView s := by
  unfold restartDown
  rw [lendingView_startDown]
  split <;> rfl

theorem keepsLending_continueDown {between : State → State} (hb : KeepsLending between) (tag : Tag) (n : Trib) (channel : Channel)
    (next : Index) (c : Cell) : KeepsLending (continueDown between tag n channel next c) := by
  intro s h
  have refused : (lendingView (giveUpDown tag n channel next (offerDown n { c with tag := channel.setWidth 10 } s))).Ok := by
    rwa [lendingView_of_leaves (s := s) (by simp [offerDown_up]) (by simp)]
  unfold continueDown
  dsimp only
  split
  · split
    · rwa [lendingView_closeGivenUp]
    · exact h
  · split
    · rwa [lendingView_of_leaves (s := s) (by simp [offerDown_up]) (by simp)]
    · split
      · rw [lendingView_closeGivenUp]
        exact hb _ refused
      · exact refused

/-- An arrival from the trunk reaches neither an uplink queue nor the scheduler's lists but by what the store takes between its two offers
(R107, R116). -/
theorem keepsLending_trunkArrival {between : State → State} (hb : KeepsLending between) (c : Cell) :
    KeepsLending (trunkArrival between c) := by
  intro s h
  unfold trunkArrival
  split
  · split
    · unfold channelArrival
      split
      case h_1 | h_2 => rwa [lendingView_startDown]
      case h_5 | h_6 => exact keepsLending_continueDown hb _ _ _ _ _ s h
      case h_7 | h_8 | h_11 | h_12 | h_15 | h_16 => rwa [lendingView_restartDown]
      case h_10 | h_14 => rwa [lendingView_closeGivenUp]
      all_goals exact h
    · rwa [lendingView_of_leaves (s := s) (by simp) (by simp)]
  · split
    · rwa [lendingView_of_leaves (s := s) (by simp) (by simp)]
    · split
      · exact h
      · exact h

/-! ## Header tests and signals -/

@[simp] theorem lendingView_setReceiver (l : Link) (r : Receiver) (s : State) : lendingView (setReceiver l r s) = lendingView s :=
  lendingView_of_leaves (by simp) (by simp)

@[simp] theorem lendingView_setSignal (l : Link) (b : Bool) (s : State) : lendingView (setSignal l b s) = lendingView s :=
  lendingView_of_leaves (by simp) (by simp)

@[simp] theorem lendingView_countBadHeader (l : Link) (s : State) : lendingView (countBadHeader l s) = lendingView s := by
  rw [countBadHeader_eq]
  rfl

theorem keepsLending_handOn {between : State → State} (hb : KeepsLending between) (l : Link) (c : Cell) :
    KeepsLending (handOn between l c) := by
  intro s h
  unfold handOn
  split
  · exact h
  · cases l with
    | trunk => exact keepsLending_trunkArrival hb c s h
    | tributary n => exact keepsLending_tribArrival n c s h

theorem keepsLending_reportLockLost (turn : Turn) (l : Link) : KeepsLending (reportLockLost turn l) := by
  cases l with
  | trunk => exact keepsLending_of_view fun s => lendingView_of_leaves (by simp [reportLockLost]) (by simp [reportLockLost])
  | tributary n => exact keepsLending_portLockLost turn n

theorem keepsLending_seekTest (l : Link) (bytes : List Byte) : KeepsLending (seekTest l bytes) := by
  intro s h
  unfold seekTest
  dsimp only
  split
  · split
    · rwa [lendingView_setReceiver]
    · rwa [lendingView_setReceiver]
  · exact h

theorem keepsLending_enterLocked (turn : Turn) (l : Link) (bytes : List Byte) : KeepsLending (enterLocked turn l bytes) := by
  intro s h
  unfold enterLocked
  refine keepsLending_postBeside (keepsLending_of_view fun s => lendingView_of_leaves (by simp) (by simp))
    (keepsLending_handOn (fun _ h => h) l (decodeCell bytes)) _ ?_
  rwa [lendingView_of_leaves (s := s) (by simp) (by simp)]

theorem keepsLending_confirmTest (turn : Turn) (l : Link) (bytes : List Byte) : KeepsLending (confirmTest turn l bytes) := by
  intro s h
  unfold confirmTest
  dsimp only
  split
  · split
    · split
      · rwa [lendingView_setReceiver]
      · exact keepsLending_enterLocked turn l bytes s h
    · rwa [lendingView_setReceiver]
  · exact h

theorem keepsLending_lockedTestWith {between : State → State} (hb : KeepsLending between) (turn : Turn) (l : Link) (bytes : List Byte) :
    KeepsLending (lockedTestWith between turn l bytes) := by
  intro s h
  unfold lockedTestWith
  dsimp only
  split
  · split
    · exact keepsLending_handOn hb l _ _ (by rwa [lendingView_setReceiver])
    · split
      · rwa [lendingView_countBadHeader, lendingView_setReceiver]
      · exact keepsLending_reportLockLost turn l _ (by rwa [lendingView_countBadHeader, lendingView_setReceiver])
  · exact h

theorem keepsLending_signalLossEvent (turn : Turn) (l : Link) : KeepsLending (signalLossEvent turn l) := by
  intro s h
  have sought : (lendingView (setReceiver l (seekAt 0) (setSignal l false s))).Ok := by
    rwa [lendingView_setReceiver, lendingView_setSignal]
  unfold signalLossEvent
  dsimp only
  split
  · rwa [lendingView_setSignal]
  · split
    · exact keepsLending_reportLockLost turn l _ sought
    · exact sought

theorem keepsLending_signalReturnEvent (l : Link) : KeepsLending (signalReturnEvent l) := by
  intro s h
  unfold signalReturnEvent
  split
  · exact h
  · split
    · rwa [lendingView_setSignal]
    · rwa [lendingView_setReceiver, lendingView_setSignal]

/-! ## Executions -/

theorem keepsLending_runCommand {k : CommandKind} {work : TakenCommand → State → State} (hw : ∀ c, KeepsLending (work c)) :
    KeepsLending (runCommand k work) := fun _ h =>
  runCommand_cases (motive := fun t => (lendingView t).Ok) h (fun _ _ _ => h) fun c _ _ => hw c _ h

theorem keepsLending_of_carriage {work : State → State} (hw : ∀ s, carriage (work s) = carriage s) : KeepsLending work :=
  keepsLending_of_view fun s => by
    have hs := hw s
    simp only [carriage, Prod.mk.injEq] at hs
    obtain ⟨-, -, hstore, -, hscheduler⟩ := hs
    exact lendingView_of_leaves (by rw [hstore]) hscheduler

@[simp] theorem lendingView_complete (c : TakenCommand) (r : Result) (d : List Byte) (s : State) :
    lendingView (complete c r d s) = lendingView s := rfl

theorem lendingOk_workRestart (c : TakenCommand) (s : State) : (lendingView (workRestart c s)).Ok :=
  lendingOk_of_empty (fun _ => (restarted_queues _).1) rfl rfl

theorem keepsLending_workWritePort (turn : Turn) (c : TakenCommand) : KeepsLending (workWritePort turn c) := by
  intro s h
  unfold workWritePort
  dsimp only
  split
  · split
    · exact keepsLending_applyPortEntry turn _ _ s h
    · exact h
  · exact h

theorem keepsLending_workFlushPort (c : TakenCommand) : KeepsLending (workFlushPort c) := by
  intro s h
  unfold workFlushPort
  dsimp only
  split
  · next n _ =>
    split
    · exact keepsLending_flushUplink n s h
    · split
      · exact h
      · split
        · rw [lendingView_complete, lendingView_closeDownlink]
          exact keepsLending_flushUplink n s h
        · exact h
  · exact h

/-! ## Every step -/

theorem keepsLending_runStoreEvent (e : StoreEvent) : KeepsLending (runStoreEvent e) := by
  cases e with
  | slot => exact keepsLending_slotEvent
  | cellTime n => exact keepsLending_of_view (lendingView_cellTimeEvent n)
  | headerTest n bytes turn =>
    intro s h
    simp only [runStoreEvent]
    split
    · exact keepsLending_confirmTest turn _ bytes s h
    · exact keepsLending_lockedTestWith (fun _ h => h) turn _ bytes s h
  | signalLoss n turn => exact keepsLending_signalLossEvent turn _
  | writePort turn => exact keepsLending_runCommand (keepsLending_workWritePort turn)
  | flushPort => exact keepsLending_runCommand keepsLending_workFlushPort

theorem keepsLending_runStoreEvents (events : List StoreEvent) : KeepsLending (runStoreEvents events) := by
  induction events with
  | nil => exact fun _ h => h
  | cons e rest ih => exact fun s h => ih _ (keepsLending_runStoreEvent e s h)

theorem lendingOk_whileRunning {event : State → State} (he : KeepsLending event) {s : State} (h : (lendingView s).Ok) :
    (lendingView (whileRunning s event)).Ok := whileRunning_cases (motive := fun t => (lendingView t).Ok) h fun _ => he s h

theorem lendingOk_command {k : CommandKind} {work : TakenCommand → State → State} (hw : ∀ c s, carriage (work c s) = carriage s)
    {s : State} (h : (lendingView s).Ok) : (lendingView (whileRunning s (runCommand k work))).Ok :=
  lendingOk_whileRunning (keepsLending_runCommand fun c => keepsLending_of_carriage (hw c)) h

theorem exec_keeps_lending (i : Instr) (s t : State) (h : (lendingView s).Ok) (ht : exec i s = .next t) : (lendingView t).Ok := by
  cases i <;> injection ht with ht <;> subst ht
  case powerOn => exact h
  case resetN =>
    unfold resetNEvent
    dsimp only
    split
    · exact h
    · exact h
  case hardResetEnd =>
    unfold hardResetEndEvent
    split
    · exact lendingOk_of_schedulerOk (uplinkOk_afterHardReset _ _ _ _) (schedulerOk_afterHardReset _ _ _ _)
    · exact h
  case signalLoss l turn => exact keepsLending_signalLossEvent turn l s h
  case signalReturn l => exact keepsLending_signalReturnEvent l s h
  case seekHeaderTest l bytes => exact lendingOk_whileRunning (keepsLending_seekTest l bytes) h
  case confirmHeaderTest l bytes turn => exact lendingOk_whileRunning (keepsLending_confirmTest turn l bytes) h
  case lockedHeaderTest l bytes between turn =>
    exact lendingOk_whileRunning (keepsLending_lockedTestWith (keepsLending_runStoreEvents between) turn l bytes) h
  case slot => exact lendingOk_whileRunning keepsLending_slotEvent h
  case tributaryCellTime n => exact lendingOk_whileRunning (keepsLending_of_view (lendingView_cellTimeEvent n)) h
  case cycleBoundary order => exact lendingOk_whileRunning (keepsLending_of_view (lendingView_boundaryEvent order)) h
  case planReverted => exact lendingOk_whileRunning (keepsLending_of_view lendingView_revertEvent) h
  case noticeRepeatExpiry => exact lendingOk_whileRunning (keepsLending_of_view lendingView_expiryEvent) h
  case surveyDone => exact lendingOk_whileRunning (keepsLending_of_view lendingView_surveyDoneEvent) h
  case unknownKind => exact lendingOk_whileRunning (keepsLending_of_carriage (runUnknown_keeps fun _ _ => rfl)) h
  case restart => exact lendingOk_whileRunning (keepsLending_runCommand fun c s _ => lendingOk_workRestart c s) h
  case writePort turn => exact lendingOk_whileRunning (keepsLending_runCommand (keepsLending_workWritePort turn)) h
  case flushPort => exact lendingOk_whileRunning (keepsLending_runCommand keepsLending_workFlushPort) h
  case echo => exact lendingOk_command carriage_echo h
  case identify => exact lendingOk_command carriage_identify h
  case readStatus => exact lendingOk_command carriage_readStatus h
  case selectEditPlan => exact lendingOk_command carriage_selectEditPlan h
  case writeSlots => exact lendingOk_command carriage_writeSlots h
  case setCycleLength => exact lendingOk_command carriage_setCycleLength h
  case writeTributaryEntry => exact lendingOk_command carriage_writeTributaryEntry h
  case setPlanOptions => exact lendingOk_command carriage_setPlanOptions h
  case copyPlan => exact lendingOk_command carriage_copyPlan h
  case readSlots => exact lendingOk_command carriage_readSlots h
  case readTributaryEntry => exact lendingOk_command carriage_readTributaryEntry h
  case readPlanOptions => exact lendingOk_command carriage_readPlanOptions h
  case switchPlan => exact lendingOk_command carriage_switchPlan h
  case confirmPlan => exact lendingOk_command carriage_confirmPlan h
  case readPort => exact lendingOk_command carriage_readPort h
  case writeChannels => exact lendingOk_command carriage_writeChannels h
  case readChannel => exact lendingOk_command carriage_readChannel h
  case readCounters => exact lendingOk_command carriage_readCounters h
  case clearCounters => exact lendingOk_command carriage_clearCounters h
  case startSurvey => exact lendingOk_command carriage_startSurvey h
  case stopSurvey => exact lendingOk_command carriage_stopSurvey h
  case readSurvey => exact lendingOk_command carriage_readSurvey h
  case ackNotice => exact lendingOk_command carriage_ackNotice h
  case setNoticeOptions => exact lendingOk_command carriage_setNoticeOptions h

/-- Settles O9: the law of the two lists, with the true complete-message counts that the law of uplink messages gives, outlives every
step. -/
theorem stepKeepsBorrowStackLaw : Obligations.StepKeepsBorrowStackLaw := by
  unfold Obligations.StepKeepsBorrowStackLaw
  intro s t hu h ht
  have hlending := step_keeps (inv := fun s => (lendingView s).Ok) (fun _ _ h => h) exec_keeps_lending (lendingOk_of_schedulerOk hu h) ht
  exact hlending.schedulerOk

end Sys2Proof.Proofs.SlotScheduler
end

section
/-! PROOFS. The boundary at the notice list and at the survey: with the other blocks, alone, and in or after slot 0 (R82, R155, R171 to
R173). -/

namespace Sys2Proof.Proofs.SlotScheduler

open Sys2Proof.Machine Sys2Proof.Laws Sys2Proof.Claims Sys2Proof.Proofs.CellStore Sys2Proof.Proofs.Plans

/-! ## The survey's taking of a boundary (R171) -/

theorem surveyTakesBoundary_of_ends {s : State} (hdue : s.scheduler.due.survey = true) (hends : WindowEnds s.survey) :
    surveyTakesBoundary s = post .surveyDone 0 0 (surveyTaken s) := by
  simp only [surveyTakesBoundary, surveyCountsBoundary_of_due hdue, postSurveyDone, hdue, (completes_iff _).mpr hends, Bool.and_self,
    if_true]

theorem surveyTakesBoundary_of_goes {s : State} (hdue : s.scheduler.due.survey = true) (hgoes : ¬WindowEnds s.survey) :
    surveyTakesBoundary s = surveyTaken s := by
  have hcompletes : s.survey.completes = false := Bool.eq_false_iff.mpr fun h => hgoes ((completes_iff _).mp h)
  simp only [surveyTakesBoundary, surveyCountsBoundary_of_due hdue, postSurveyDone, hcompletes, Bool.and_false, Bool.false_eq_true,
    if_false]

theorem boundaryTaken_of_ends {v : Survey} (h : WindowEnds v) :
    boundaryTaken v = { v with state := .done, cycles := saturate16 v.cycles } := by
  obtain ⟨hrunning, hwindow⟩ := h
  simp only [boundaryTaken, hrunning, if_pos hwindow]

/-- The survey's taking reaches no other block but by its posting (R171). -/
theorem surveyTakesAlone {s : State} (hdue : s.scheduler.due.survey = true) : SurveyTakesAlone s (surveyTakesBoundary s) := by
  obtain ⟨hpending, hpins, hlinks, hstore, hports, hplans, hchannels, hengine, -, -, -, hscheduler⟩ := surveyTakesBoundary_leaves s
  exact ⟨(surveyTakesBoundary_survey hdue).trans (afterBoundary_eq _), hscheduler, hstore, hplans, hengine, hchannels, hports,
    hlinks, hpins, hpending⟩

theorem surveyTakesBoundary_posts {s : State} (hdue : s.scheduler.due.survey = true) :
    (WindowEnds s.survey → SamePosts (post .surveyDone 0 0 s) (surveyTakesBoundary s))
      ∧ (¬WindowEnds s.survey → SamePosts s (surveyTakesBoundary s)) := by
  constructor
  · intro hends
    rw [surveyTakesBoundary_of_ends hdue hends]
    exact postsAlone_post .surveyDone 0 0 s (surveyTaken s) ⟨rfl, rfl⟩
  · intro hgoes
    rw [surveyTakesBoundary_of_goes hdue hgoes]
    exact ⟨rfl, rfl⟩

/-! ## A whole boundary in STEADY -/

theorem takesAs_steady {s : State} (h : s.plans.switch = .steady) : TakesAs s.plans s.engine id id s := fun u hplans hengine _ => by
  rw [plansTakeBoundary_of_steady (hplans ▸ h), ← hplans, ← hengine]
  rfl

theorem surveyAt_id (turn : SurveyTurn) (v : Survey) : surveyAt turn id v = if turn = .late then v else boundaryTaken v := by
  cases turn <;> rfl

/-- In STEADY a boundary is the scheduler's, the notice list's and the survey's alone (R82, R155, R171). -/
theorem exec_steadyBoundary {order : BoundaryOrder} {s : State} (hcomes : BoundaryComes s) (hsurvey : order.survey ≠ .alone)
    (hsteady : s.plans.switch = .steady) :
    ∃ t, exec (.cycleBoundary order) s = .next t ∧ BoundaryDelivered order s t ∧ t.plans = s.plans ∧ t.engine = s.engine
      ∧ t.survey = (if order.survey = .late then s.survey else boundaryTaken s.survey)
      ∧ (WindowEnds s.survey → order.survey ≠ .late →
        t.notices = timedUnless order.noticesLate (post .surveyDone 0 0 s).notices ∧ t.bank = (post .surveyDone 0 0 s).bank)
      ∧ (¬WindowEnds s.survey ∨ order.survey = .late → t.notices = timedUnless order.noticesLate s.notices ∧ t.bank = s.bank) := by
  obtain ⟨t, hexec, hdelivered, hplans, hengine, ⟨hends, hgoes⟩, hv⟩ :=
    exec_boundary hcomes hsurvey (takesAs_steady hsteady) postsAlone_id
  have hboth : bothPosted order.surveyPost (post .surveyDone 0 0) id s = post .surveyDone 0 0 s := by cases order.surveyPost <;> rfl
  rw [hboth] at hends
  refine ⟨t, hexec, hdelivered, hplans, hengine, hv.trans (surveyAt_id _ _), fun h hlate => hends h ?_, hgoes⟩
  cases hturn : order.survey with
  | alone => exact absurd hturn hsurvey
  | beforePlan => exact .inl rfl
  | afterPlan => exact .inr rfl
  | late => exact absurd hturn hlate

/-! ## The notice list's taking of a boundary (R155) -/

theorem noticesTakeBoundary_of_due {s : State} (h : s.scheduler.due.notices = true) :
    noticesTakeBoundary s = { withNoticesDue false s with notices := { s.notices with records := s.notices.records.map timed } } := by
  simp only [noticesTakeBoundary, h, if_true, funext tick_eq]
  rfl

theorem noticesTakeBoundary_of_taken {s : State} (h : ¬s.scheduler.due.notices = true) : noticesTakeBoundary s = s := if_neg h

theorem settleNotices_of_first {s : State} (h : s.scheduler.position = 0) : settleNotices s = s := if_pos h

theorem settleNotices_of_later {s : State} (h : s.scheduler.position ≠ 0) : settleNotices s = noticesTakeBoundary s := if_neg h

/-- A timer one short of the interval is brought to it, since an interval is a byte (R155). -/
theorem expires_of_timer {r : NoticeRecord} {timer interval : Byte} (hr : r.state = .sent timer)
    (h : timer.toNat + 1 = interval.toNat) : r.expires interval = true := by
  have hbyte : interval.toNat < 256 := interval.isLt
  have hroom : timer ≠ 255 := by
    rintro rfl
    exact absurd h (by simp; omega)
  have hnext : (saturate8 timer).toNat = timer.toNat + 1 := by
    rw [saturate8, if_neg hroom, BitVec.toNat_add]
    exact Nat.mod_eq_of_lt (by simp; omega)
  simp only [NoticeRecord.expires, hr, hnext, decide_eq_true_eq]
  omega

/-! ## A slot read past the clock -/

/-- The part with another survey, and with the slot position and the boundary's parts as given: none of it is read by a slot's decision. -/
def clocked (v : Survey) (position : Nat) (due : BoundaryDue) (s : State) : State :=
  { s with survey := v, scheduler := { s.scheduler with position := position, due := due } }

/-- A decision over the same state changed. -/
def onState (f : State → State) (d : Decision) : Decision := { d with state := f d.state }

section Clock

variable (v : Survey) (position : Nat) (due : BoundaryDue) (s : State)

theorem sentUp_clocked (n : Trib) (c : Cell) (rest : List Cell) :
    sentUp n c rest (clocked v position due s) = clocked v position due (sentUp n c rest s) := by
  unfold sentUp afterSend
  split <;> rfl

theorem decideSpare_clocked : decideSpare (clocked v position due s) = onState (clocked v position due) (decideSpare s) := by
  have hstack : borrowDecision (clocked v position due s) = borrowDecision s := rfl
  cases howed : s.scheduler.abandon with
  | cons e rest =>
    rw [decideSpare_of_owed howed, decideSpare_of_owed (s := clocked v position due s) howed]
    rfl
  | nil =>
    cases htop : borrowDecision s with
    | nil =>
      rw [decideSpare_of_idle howed htop, decideSpare_of_idle (s := clocked v position due s) howed (hstack.trans htop)]
      rfl
    | cons n below =>
      cases hcells : s.store.up[n].cells with
      | nil =>
        rw [decideSpare_of_empty howed htop hcells, decideSpare_of_empty (s := clocked v position due s) howed (hstack.trans htop) hcells]
        rfl
      | cons c rest =>
        rw [decideSpare_of_top howed htop hcells, decideSpare_of_top (s := clocked v position due s) howed (hstack.trans htop) hcells]
        exact congrArg (Decision.mk _ _) (sentUp_clocked v position due (lent s) n c rest)

theorem decideManagement_clocked :
    decideManagement (clocked v position due s) = onState (clocked v position due) (decideManagement s) := by
  cases hplaced : s.engine.placed with
  | cons r rest =>
    rw [decideManagement_of_response hplaced, decideManagement_of_response (s := clocked v position due s) hplaced]
    rfl
  | nil =>
    cases hoffer : offerNotice s.notices.interval s.notices.records with
    | none =>
      rw [decideManagement_of_nothing hplaced hoffer, decideManagement_of_nothing (s := clocked v position due s) hplaced hoffer]
      exact decideSpare_clocked v position due s
    | some offered =>
      rw [decideManagement_of_notice hplaced hoffer, decideManagement_of_notice (s := clocked v position due s) hplaced hoffer]
      rfl

theorem decideOwn_clocked (n : Trib) : decideOwn n (clocked v position due s) = onState (clocked v position due) (decideOwn n s) := by
  cases hfind : s.scheduler.abandon.find? fun e => e.trib == n with
  | some e =>
    rw [decideOwn_of_found hfind, decideOwn_of_found (s := clocked v position due s) hfind]
    rfl
  | none =>
    have howed : ∀ e ∈ s.scheduler.abandon, e.trib ≠ n := fun e he => by simpa using List.find?_eq_none.mp hfind e he
    cases hcells : s.store.up[n].cells with
    | nil =>
      rw [decideOwn_of_nothing howed hcells, decideOwn_of_nothing (s := clocked v position due s) howed hcells]
      exact decideSpare_clocked v position due s
    | cons c rest =>
      rw [decideOwn_of_cells howed hcells, decideOwn_of_cells (s := clocked v position due s) howed hcells, sentUp_clocked]
      rfl

theorem decideSlot_clocked (o : Owner) : decideSlot o (clocked v position due s) = onState (clocked v position due) (decideSlot o s) := by
  cases o with
  | trib n => exact decideOwn_clocked v position due s n
  | management => exact decideManagement_clocked v position due s
  | openSlot => exact decideSpare_clocked v position due s

end Clock

/-- A slot's decision leaves the survey, the position and the boundary's parts. -/
theorem decideSlot_clock (o : Owner) (s : State) :
    (decideSlot o s).state.survey = s.survey ∧ (decideSlot o s).state.scheduler.position = s.scheduler.position
      ∧ (decideSlot o s).state.scheduler.due = s.scheduler.due := by
  have hself : decideSlot o s = onState (clocked s.survey s.scheduler.position s.scheduler.due) (decideSlot o s) :=
    decideSlot_clocked s.survey s.scheduler.position s.scheduler.due s o
  rw [hself]
  exact ⟨rfl, rfl, rfl⟩

/-- What is decided for the slot at the position (section 5.2). -/
def slotDecision (s : State) : Decision := decideSlot (s.plans.running.owner s.scheduler.position) s

/-- An event that moves the survey and the boundary's parts alone may come before or after the decision. -/
theorem slotDecision_comm {f : State → State} (v : Survey) (due : BoundaryDue) {s : State}
    (hf : ∀ u : State, u.survey = s.survey → u.scheduler.position = s.scheduler.position → u.scheduler.due = s.scheduler.due →
      f u = clocked v s.scheduler.position due u) :
    slotDecision (f s) = onState f (slotDecision s) := by
  obtain ⟨hv, hposition, hdue⟩ := decideSlot_clock (s.plans.running.owner s.scheduler.position) s
  rw [hf s rfl rfl rfl]
  refine (decideSlot_clocked v s.scheduler.position due s _).trans ?_
  exact congrArg (Decision.mk _ _) (hf _ hv hposition hdue).symm

theorem slotDecision_withNoticesDue (b : Bool) (s : State) :
    slotDecision (withNoticesDue b s) = onState (withNoticesDue b) (slotDecision s) :=
  slotDecision_comm s.survey { s.scheduler.due with notices := b } fun u hv hposition hdue => by
    rw [← hv, ← hposition, ← hdue]
    rfl

theorem slotDecision_surveyTaken (s : State) : slotDecision (surveyTaken s) = onState surveyTaken (slotDecision s) :=
  slotDecision_comm (boundaryTaken s.survey) { s.scheduler.due with survey := false } fun u hv hposition hdue => by
    rw [← hv, ← hposition, ← hdue]
    rfl

theorem slotEvent_of_delivered {s : State} (h : s.scheduler.due.scheduler = false) :
    slotEvent s = carrySlot (settleNotices s).plans.running.length (slotDecision (settleNotices s)) := by
  simp only [slotEvent, h, Bool.false_eq_true, if_false]
  rfl

/-! ## What a posting is beside the rest of a slot -/

/-- A posting comes before or after work that neither reaches nor reads the notice list and the counters. -/
theorem post_comm {work : State → State} {s : State} (hnotices : (work s).notices = s.notices) (hbank : (work s).bank = s.bank)
    (hwork : ∀ l b, work { s with notices := l, bank := b } = { work s with notices := l, bank := b }) (kind : NoticeKind)
    (subject detail : Byte) : work (post kind subject detail s) = post kind subject detail (work s) :=
  calc work (post kind subject detail s)
    _ = work { s with notices := (post kind subject detail s).notices, bank := (post kind subject detail s).bank } :=
      congrArg work (post_eq kind subject detail s)
    _ = { work s with notices := (post kind subject detail s).notices, bank := (post kind subject detail s).bank } := hwork _ _
    _ = post kind subject detail (work s) := (post_of_same hnotices hbank).symm

/-- The report of a slot and the move to the next (R81, R103). -/
def slotClosed (length : Nat) (k : SlotKind) (s : State) : State := advanceSlot length (reportSlot k s)

theorem slotClosed_eq (length : Nat) (k : SlotKind) (s : State) :
    slotClosed length k s =
      { s with
        survey := if s.survey.state = .running then s.survey.tally k else s.survey
        scheduler :=
          if s.scheduler.position + 1 < length then { s.scheduler with position := s.scheduler.position + 1 }
          else { s.scheduler with due := { scheduler := true, plan := true, notices := true, survey := true } } } := by
  have hscheduler : (reportSlot k s).scheduler = s.scheduler := by simp
  unfold slotClosed advanceSlot
  rw [hscheduler]
  unfold reportSlot
  split <;> split <;> rfl

theorem slotClosed_post (length : Nat) (k : SlotKind) (kind : NoticeKind) (subject detail : Byte) (s : State) :
    slotClosed length k (post kind subject detail s) = post kind subject detail (slotClosed length k s) :=
  post_comm (by rw [slotClosed_eq]) (by rw [slotClosed_eq]) (fun l b => by rw [slotClosed_eq, slotClosed_eq]) kind subject detail

/-- The cell at the trunk transmitter (R83). -/
def transmitted (d : Decision) : State := { d.state with links := { d.state.links with trunkTx := .sending d.cell } }

theorem carrySlot_eq (length : Nat) (d : Decision) : carrySlot length d = slotClosed length d.kind (surveyTakesBoundary (transmitted d)) :=
  rfl

/-! ## The survey in slot 0 (R82, R172) -/

/-- A survey that takes the boundary in a slot could have taken it before the slot's decision, but for its posting. -/
theorem carrySlot_of_lateSurvey {d : Decision} (hdue : d.state.scheduler.due.survey = true) (length : Nat) :
    (WindowEnds d.state.survey → carrySlot length d = post .surveyDone 0 0 (carrySlot length (onState surveyTaken d)))
      ∧ (¬WindowEnds d.state.survey → carrySlot length d = carrySlot length (onState surveyTaken d)) := by
  have htaken : carrySlot length (onState surveyTaken d) = slotClosed length d.kind (surveyTaken (transmitted d)) :=
    congrArg (slotClosed length d.kind) (surveyTakesBoundary_of_taken rfl)
  rw [htaken, carrySlot_eq]
  constructor
  · intro hends
    rw [surveyTakesBoundary_of_ends (s := transmitted d) hdue hends, slotClosed_post]
  · intro hgoes
    rw [surveyTakesBoundary_of_goes (s := transmitted d) hdue hgoes]

theorem settleNotices_surveyTaken (s : State) : settleNotices (surveyTaken s) = surveyTaken (settleNotices s) := by
  by_cases hposition : s.scheduler.position = 0
  · rw [settleNotices_of_first hposition, settleNotices_of_first (s := surveyTaken s) hposition]
  · rw [settleNotices_of_later hposition, settleNotices_of_later (s := surveyTaken s) hposition]
    by_cases hdue : s.scheduler.due.notices = true
    · rw [noticesTakeBoundary_of_due hdue, noticesTakeBoundary_of_due (s := surveyTaken s) hdue]
      rfl
    · rw [noticesTakeBoundary_of_taken hdue, noticesTakeBoundary_of_taken (s := surveyTaken s) hdue]

theorem settleNotices_clock (s : State) :
    (settleNotices s).survey = s.survey ∧ (settleNotices s).scheduler.due.survey = s.scheduler.due.survey := by
  by_cases hposition : s.scheduler.position = 0
  · rw [settleNotices_of_first hposition]
    exact ⟨rfl, rfl⟩
  · rw [settleNotices_of_later hposition]
    simp [noticesTakeBoundary_leaves]

theorem slotEvent_of_lateSurvey {s : State} (hdelivered : s.scheduler.due.scheduler = false) (hdue : s.scheduler.due.survey = true) :
    (WindowEnds s.survey → slotEvent s = post .surveyDone 0 0 (slotEvent (surveyTaken s)))
      ∧ (¬WindowEnds s.survey → slotEvent s = slotEvent (surveyTaken s)) := by
  obtain ⟨hsurvey, hsettled⟩ := settleNotices_clock s
  obtain ⟨hv, -, hd⟩ := decideSlot_clock ((settleNotices s).plans.running.owner (settleNotices s).scheduler.position) (settleNotices s)
  have hlate := carrySlot_of_lateSurvey (d := slotDecision (settleNotices s)) (by rw [slotDecision, hd, hsettled, hdue])
    (settleNotices s).plans.running.length
  rw [show (slotDecision (settleNotices s)).state.survey = s.survey from hv.trans hsurvey] at hlate
  rw [slotEvent_of_delivered hdelivered, slotEvent_of_delivered (s := surveyTaken s) hdelivered, settleNotices_surveyTaken,
    slotDecision_surveyTaken]
  exact hlate

/-- Settles O39: the survey's taking, with the rest of a boundary, alone, by SURVEY_DONE, and within a slot. -/
theorem boundaryDrivesSurvey : Obligations.BoundaryDrivesSurvey := by
  unfold Obligations.BoundaryDrivesSurvey
  refine ⟨fun order s hcomes hsurvey hsteady => exec_steadyBoundary hcomes hsurvey hsteady, fun order s hrun halone hdue => ?_,
    fun s hrun hdue hends => ?_, fun s hrun hdelivered hdue => ?_⟩
  · have hexec : exec (.cycleBoundary order) s = .next (surveyTakesBoundary s) :=
      congrArg Host.Outcome.next ((whileRunning_of_running hrun _).trans (by rw [boundaryEvent, halone]))
    exact ⟨_, hexec, surveyTakesAlone hdue, surveyTakesBoundary_posts hdue⟩
  · have hexec : exec .surveyDone s = .next (surveyTakesBoundary s) :=
      congrArg Host.Outcome.next ((whileRunning_of_running hrun _).trans
        (if_pos (by rw [hdue, (completes_iff _).mpr hends]; rfl)))
    have halone := surveyTakesAlone hdue
    exact ⟨_, hexec, halone, halone.1.trans (boundaryTaken_of_ends hends), (surveyTakesBoundary_posts hdue).1 hends⟩
  · obtain ⟨hends, hgoes⟩ := slotEvent_of_lateSurvey hdelivered hdue
    have hexec {u : State} (hu : u.pins.hardReset = none) : exec .slot u = .next (slotEvent u) :=
      congrArg Host.Outcome.next (whileRunning_of_running hu _)
    exact ⟨_, hexec (u := surveyTaken s) hrun, fun h => (hexec hrun).trans (congrArg _ (hends h)),
      fun h => (hexec hrun).trans (congrArg _ (hgoes h))⟩

/-! ## The notice list after slot 0 (R82, R155) -/

theorem surveyTakesBoundary_withNoticesDue (b : Bool) (s : State) :
    surveyTakesBoundary (withNoticesDue b s) = withNoticesDue b (surveyTakesBoundary s) := by
  by_cases hdue : s.scheduler.due.survey = true
  · by_cases hends : WindowEnds s.survey
    · rw [surveyTakesBoundary_of_ends hdue hends, surveyTakesBoundary_of_ends (s := withNoticesDue b s) hdue hends]
      exact (post_comm (work := withNoticesDue b) (s := surveyTaken s) rfl rfl (fun _ _ => rfl) _ _ _).symm
    · rw [surveyTakesBoundary_of_goes hdue hends, surveyTakesBoundary_of_goes (s := withNoticesDue b s) hdue hends]
      rfl
  · have htaken : s.scheduler.due.survey = false := Bool.eq_false_iff.mpr hdue
    rw [surveyTakesBoundary_of_taken htaken, surveyTakesBoundary_of_taken (s := withNoticesDue b s) htaken]

theorem slotClosed_withNoticesDue {s : State} {length : Nat} (hroom : s.scheduler.position + 1 < length) (k : SlotKind) (b : Bool) :
    slotClosed length k (withNoticesDue b s) = withNoticesDue b (slotClosed length k s) := by
  have hroom' : (withNoticesDue b s).scheduler.position + 1 < length := hroom
  rw [slotClosed_eq, slotClosed_eq, if_pos hroom, if_pos hroom']
  rfl

/-- A slot that is not the last of its cycle neither reads nor sets the part of a boundary that the notice list has left. -/
theorem carrySlot_withNoticesDue {d : Decision} {length : Nat} (hroom : d.state.scheduler.position + 1 < length) (b : Bool) :
    carrySlot length (onState (withNoticesDue b) d) = withNoticesDue b (carrySlot length d) := by
  have hposition : (surveyTakesBoundary (transmitted d)).scheduler.position = d.state.scheduler.position := by
    simp [surveyTakesBoundary_leaves, transmitted]
  calc carrySlot length (onState (withNoticesDue b) d)
    _ = slotClosed length d.kind (withNoticesDue b (surveyTakesBoundary (transmitted d))) :=
      congrArg (slotClosed length d.kind) (surveyTakesBoundary_withNoticesDue b (transmitted d))
    _ = withNoticesDue b (carrySlot length d) := slotClosed_withNoticesDue (by rwa [hposition]) d.kind b

theorem slotEvent_withNoticesDue {s : State} (hdelivered : s.scheduler.due.scheduler = false) (hposition : s.scheduler.position = 0)
    (hroom : 1 < s.plans.running.length) (b : Bool) : slotEvent (withNoticesDue b s) = withNoticesDue b (slotEvent s) := by
  obtain ⟨-, hp, -⟩ := decideSlot_clock (s.plans.running.owner s.scheduler.position) s
  rw [slotEvent_of_delivered hdelivered, slotEvent_of_delivered (s := withNoticesDue b s) hdelivered, settleNotices_of_first hposition,
    settleNotices_of_first (s := withNoticesDue b s) hposition, slotDecision_withNoticesDue]
  exact carrySlot_withNoticesDue (by rwa [slotDecision, hp, hposition]) b

theorem withNoticesDue_self {s : State} {b : Bool} (h : s.scheduler.due.notices = b) : withNoticesDue b s = s := by
  subst h
  rfl

/-- A notice list that has left the boundary takes it ahead of every slot but slot 0. -/
theorem slotEvent_of_lateNotices {s : State} (hdelivered : s.scheduler.due.scheduler = false) (hposition : s.scheduler.position ≠ 0) :
    slotEvent s = slotEvent (noticesTakeBoundary s) := by
  obtain ⟨-, -, -, -, -, -, -, -, -, -, hleaves⟩ := noticesTakeBoundary_leaves s
  have hdue : (noticesTakeBoundary s).scheduler.due.scheduler = false := by rw [hleaves]; exact hdelivered
  have htaken : (noticesTakeBoundary s).scheduler.due.notices = false := by rw [hleaves]
  rw [slotEvent_of_delivered hdelivered, slotEvent_of_delivered hdue, settleNotices_of_later hposition, settleNotices_of_none htaken]

/-- Settles O38: the notice list's taking, with the rest of a boundary, in a step of its own, and after slot 0. -/
theorem boundaryRaisesRepeatTimers : Obligations.BoundaryRaisesRepeatTimers := by
  unfold Obligations.BoundaryRaisesRepeatTimers
  refine ⟨fun s hcomes => ⟨fun order hsurvey hsteady hidle => ?_, ?_⟩, fun s hrun hdelivered hdue => ?_⟩
  · obtain ⟨t, hexec, hdelivered, hplans, hengine, hv, -, hposts⟩ := exec_steadyBoundary hcomes hsurvey hsteady
    obtain ⟨hscheduler, hstore, hports, hchannels, hlinks, hpins, hpending⟩ := hdelivered
    obtain ⟨hnotices, hbank⟩ := hposts (.inl fun hends => by cases hidle.symm.trans hends.1)
    have hsame : boundaryTaken s.survey = s.survey := by simp only [boundaryTaken, hidle]
    rw [hsame, ite_self] at hv
    rw [hexec, ← hscheduler, ← hnotices]
    cases t
    simp_all
  · rintro ⟨r, hr, timer, hsent, htimer⟩
    obtain ⟨hrun, hdue⟩ := hcomes
    have hnotices : s.scheduler.due.notices = true := by rw [hdue]
    have hexpires : s.notices.records.any (NoticeRecord.expires s.notices.interval) = true :=
      List.any_eq_true.mpr ⟨r, hr, expires_of_timer hsent htimer⟩
    refine congrArg Host.Outcome.next ((whileRunning_of_running hrun _).trans ?_)
    rw [expiryEvent, if_pos (by rw [hnotices, hexpires]; rfl), noticesTakeBoundary_of_due hnotices]
    rfl
  · have hexec {u : State} (hu : u.pins.hardReset = none) : exec .slot u = .next (slotEvent u) :=
      congrArg Host.Outcome.next (whileRunning_of_running hu _)
    constructor
    · intro hposition hroom
      have hcomm := slotEvent_withNoticesDue hdelivered hposition hroom
      have hslot : slotEvent s = withNoticesDue true (slotEvent s) := by rw [← hcomm, withNoticesDue_self hdue]
      refine ⟨_, (hexec (u := withNoticesDue false s) hrun).trans (congrArg _ (hcomm false)), (hexec hrun).trans (congrArg _ hslot)⟩
    · intro hposition
      have hslot := slotEvent_of_lateNotices hdelivered hposition
      rw [noticesTakeBoundary_of_due hdue] at hslot
      exact ⟨_, hexec hrun, (hexec hrun).trans (congrArg _ hslot)⟩

end Sys2Proof.Proofs.SlotScheduler
end

section
/-! PROOFS. READ STATUS: its twenty-six bytes one by one (R104, R142). -/

namespace Sys2Proof.Proofs.SlotScheduler

open Sys2Proof.Machine Sys2Proof.Laws Sys2Proof.Claims Sys2Proof.Proofs.CellStore

/-! ## Words and packed states -/

/-- A number below 65536 is read back from its two bytes (R178, R179). -/
theorem word_bytes16 {n : Nat} (h : n < 65536) : (BitVec.ofNat 8 (n / 256)).toNat * 256 + (BitVec.ofNat 8 n).toNat = n := by
  simp only [BitVec.toNat_ofNat]
  omega

/-- Four two-bit numbers packed into a byte, the first in the least significant bits, are read back from it (R142). -/
theorem extract_packed {a b c : Nat} (ha : a < 4) (hb : b < 4) (hc : c < 4) (d : Nat) :
    (byteOf (a + 4 * b + 16 * c + 64 * d)).extractLsb' 0 2 = BitVec.ofNat 2 a
      ∧ (byteOf (a + 4 * b + 16 * c + 64 * d)).extractLsb' 2 2 = BitVec.ofNat 2 b
      ∧ (byteOf (a + 4 * b + 16 * c + 64 * d)).extractLsb' 4 2 = BitVec.ofNat 2 c
      ∧ (byteOf (a + 4 * b + 16 * c + 64 * d)).extractLsb' 6 2 = BitVec.ofNat 2 d := by
  refine ⟨?_, ?_, ?_, ?_⟩ <;> apply BitVec.eq_of_toNat_eq <;>
    simp only [byteOf, BitVec.extractLsb'_toNat, BitVec.toNat_ofNat, Nat.shiftRight_eq_div_pow] <;> omega

theorem portState_code_lt (x : PortState) : x.code < 4 := by
  cases x <;> decide

/-- The bytes that pack the port states of T0 to T3 and of T4 to T7 (R142). -/
def portBytes (p : Ports) : List Byte := [p.packed 0 1 2 3, p.packed 4 5 6 7]

/-- Each port's state is read back from its place in the two bytes (R142). -/
theorem extract_portBytes (p : Ports) (n : Trib) :
    (byteAt (portBytes p) (n.val / 4)).extractLsb' (2 * (n.val % 4)) 2 = BitVec.ofNat 2 (p.state n).code := by
  have hcode (n : Trib) := portState_code_lt (p.state n)
  obtain ⟨h0, h1, h2, h3⟩ := extract_packed (hcode 0) (hcode 1) (hcode 2) (p.state 3).code
  obtain ⟨h4, h5, h6, h7⟩ := extract_packed (hcode 4) (hcode 5) (hcode 6) (p.state 7).code
  fin_cases n
  · exact h0
  · exact h1
  · exact h2
  · exact h3
  · exact h4
  · exact h5
  · exact h6
  · exact h7

/-! ## The borrow stack (R104) -/

theorem borrowBytes_length (borrow : List Trib) : (borrowBytes borrow).length = 8 := by
  simp [borrowBytes]

/-- Each place of the stack is its holder's number, and 0xFF after the last holder (R104). -/
theorem byteAt_borrowBytes (borrow : List Trib) {k : Nat} (hk : k < 8) :
    byteAt (borrowBytes borrow) k = (borrow[k]?.map fun n => byteOf n.val).getD 0xFF := by
  unfold byteAt borrowBytes
  rw [List.getD_eq_getElem?_getD, List.getElem?_take_of_lt hk]
  by_cases hheld : k < borrow.length
  · rw [List.getElem?_append_left (by simpa using hheld), List.getElem?_map, List.getElem?_eq_getElem hheld]
    rfl
  · rw [List.getElem?_append_right (by simpa using hheld), List.getElem?_eq_none (Nat.le_of_not_lt hheld)]
    simp only [List.length_map, List.getElem?_replicate, show k - borrow.length < 8 by omega, if_true]
    rfl

/-! ## The data of READ STATUS (R142) -/

/-- The twelve bytes before the borrow stack. -/
def statusHead (s : State) : List Byte :=
  [planByte s.plans.run, planByte s.plans.edit, s.plans.switch.code]
    ++ bytes16 s.plans.remaining.toNat ++ [s.links.trunkRx.delineation.code] ++ portBytes s.ports
    ++ bytes16 s.store.free ++ bytes16 s.reserve

/-- The six bytes after the borrow stack. -/
def statusTail (s : State) : List Byte :=
  [byteOf s.scheduler.abandon.length, s.survey.state.code, byteOf s.notices.ordinary, flagByte s.notices.hasLostMarker,
    byteOf s.engine.commands.length, byteOf s.engine.entriesUsed]

theorem statusHead_length (s : State) : (statusHead s).length = 12 := rfl

theorem statusData_eq (s : State) : statusData s = statusHead s ++ (borrowBytes s.scheduler.borrow ++ statusTail s) := rfl

theorem byteAt_append_right {xs ys : List Byte} {k i : Nat} (h : xs.length = k) : byteAt (xs ++ ys) (k + i) = byteAt ys i := by
  simp [byteAt, ← h, List.getD_eq_getElem?_getD, List.getElem?_append_right (Nat.le_add_right xs.length i)]

theorem byteAt_append_left {xs ys : List Byte} {i : Nat} (h : i < xs.length) : byteAt (xs ++ ys) i = byteAt xs i := by
  simp [byteAt, List.getD_eq_getElem?_getD, List.getElem?_append_left h]

theorem byteAt_statusData_borrow (s : State) {k : Nat} (hk : k < 8) :
    byteAt (statusData s) (12 + k) = byteAt (borrowBytes s.scheduler.borrow) k := by
  rw [statusData_eq, byteAt_append_right (statusHead_length s), byteAt_append_left (by rwa [borrowBytes_length])]

theorem byteAt_statusData_tail (s : State) (i : Nat) : byteAt (statusData s) (20 + i) = byteAt (statusTail s) i := by
  rw [statusData_eq, show 20 + i = 12 + (8 + i) by omega, byteAt_append_right (statusHead_length s),
    byteAt_append_right (borrowBytes_length _)]

theorem statusData_length (s : State) : (statusData s).length = 26 := by
  rw [statusData_eq, List.length_append, List.length_append, borrowBytes_length]
  rfl

/-- Settles O42: the bytes of READ STATUS with its execution begun, which has taken it off the command queue and reserved its entry. -/
theorem readStatusReportsThePart : Obligations.ReadStatusReportsThePart := by
  unfold Obligations.ReadStatusReportsThePart
  intro c rest s hready
  have hexec : exec .readStatus s = .next (workReadStatus c (beginCommand rest s)) := exec_of_ready hready rfl
  set u := beginCommand rest s with hu
  have hcommands : u.engine.commands = rest := by simp [hu]
  have hentries : u.engine.entriesUsed = s.engine.placed.length + 1 := by simp [hu, Engine.entriesUsed]
  have hports (n : Trib) : byteAt (statusData u) (6 + n.val / 4) = byteAt (portBytes s.ports) (n.val / 4) := by
    fin_cases n <;> rfl
  refine ⟨statusData u, answers_complete hexec rfl, statusData_length u, rfl, rfl, ?_, fun r f htrial => ?_, fun hno => ?_, ?_,
    fun n => ?_, word_bytes16, word_bytes16, fun k hk => ?_, ?_, ?_, ?_, ?_, ?_, ?_⟩
  · refine Eq.trans (b := s.plans.switch.code) rfl ?_
    unfold switchCode
    cases s.plans.switch <;> rfl
  · have hremaining : s.plans.remaining = r := by simp only [PlanStore.remaining, htrial]
    exact hremaining ▸ word_bytes16 s.plans.remaining.isLt
  · have hremaining : s.plans.remaining = 0 := by
      unfold PlanStore.remaining
      split
      · next r f htrial => exact absurd htrial (hno r f)
      · rfl
      · rfl
    exact (word_bytes16 s.plans.remaining.isLt).trans (by rw [hremaining]; rfl)
  · refine Eq.trans (b := s.links.trunkRx.delineation.code) rfl ?_
    cases s.links.trunkRx.delineation <;> rfl
  · rw [hports, extract_portBytes]
    cases s.ports.state n <;> rfl
  · rw [byteAt_statusData_borrow u hk, byteAt_borrowBytes _ hk]
    rfl
  · exact byteAt_statusData_tail u 0
  · refine (byteAt_statusData_tail u 1).trans (Eq.trans (b := s.survey.state.code) rfl ?_)
    cases s.survey.state <;> rfl
  · exact byteAt_statusData_tail u 2
  · exact byteAt_statusData_tail u 3
  · exact (byteAt_statusData_tail u 4).trans (congrArg (fun l : List TakenCommand => byteOf l.length) hcommands)
  · exact (byteAt_statusData_tail u 5).trans (congrArg byteOf hentries)

end Sys2Proof.Proofs.SlotScheduler
end

section
/-! PROOFS. WRITE CHANNELS: what its writes on consecutive tags make of each entry, and the range of its operands (R122, R123). -/

namespace Sys2Proof.Proofs.TrunkReceive

open Sys2Proof.Machine Sys2Proof.Laws Sys2Proof.Claims Sys2Proof.Proofs.CellStore

/-! ## The entries written -/

/-- An entry with the configured part that WRITE CHANNELS gives its tag, its current part kept (R123). -/
def configuredAt (n : Trib) (mask : PlanMask) (channel : Nat) (e : ChannelEntry) : ChannelEntry :=
  { e with mask := mask, trib := n, channel := BitVec.ofNat 6 channel }

/-- Writes on consecutive tags, all assignable, keep the canonical form. -/
theorem writeEntries_wf {n : Trib} {mask : PlanMask} (count : Nat) : ∀ {tag channel : Nat} {m : ChannelMap}, m.wf = true →
    tag + count ≤ Config.assignableTags → (writeEntries n mask count tag channel m).wf = true := by
  induction count with
  | zero => exact fun h _ => h
  | succ count ih => exact fun h hlast => ih (wf_set (by omega) h) (by omega)

/-- Each tag named has the configured part with the local channel of its place, and every other entry stands (R123). -/
theorem get_writeEntries {n : Trib} {mask : PlanMask} (t count : Nat) : ∀ {tag channel : Nat} {m : ChannelMap}, m.wf = true →
    tag + count ≤ Config.assignableTags →
    (writeEntries n mask count tag channel m).get t =
      if tag ≤ t ∧ t < tag + count then configuredAt n mask (channel + (t - tag)) (m.get t) else m.get t := by
  induction count with
  | zero =>
    intro tag channel m _ _
    rw [if_neg (by omega)]
    rfl
  | succ count ih =>
    intro tag channel m h hlast
    rw [writeEntries, ih (wf_set (by omega) h) (by omega), get_set_entry h]
    by_cases ht : t = tag
    · subst ht
      rw [if_neg (by omega), if_pos rfl, if_pos (by omega), Nat.sub_self]
      rfl
    · rw [if_neg ht]
      by_cases hin : tag ≤ t ∧ t < tag + (count + 1)
      · rw [if_pos (by omega), if_pos hin, show channel + 1 + (t - (tag + 1)) = channel + (t - tag) by omega]
      · rw [if_neg (by omega), if_neg hin]

/-! ## The command -/

theorem maskOf_code (mask : PlanMask) : PlanMask.ofByte mask.code = some mask := by
  cases mask <;> rfl

theorem maskOf_of_gt {b : Byte} (h : 3 < b.toNat) : PlanMask.ofByte b = none := by
  have h0 : b ≠ 0 := fun e => by simp [e] at h
  have h1 : b ≠ 1 := fun e => by simp [e] at h
  have h2 : b ≠ 2 := fun e => by simp [e] at h
  have h3 : b ≠ 3 := fun e => by simp [e] at h
  simp only [PlanMask.ofByte, h0, h1, h2, h3, if_false]

section WriteChannels

variable {c : TakenCommand} {s : State}

theorem workWriteChannels_of_range {n : Trib} {mask : PlanMask} (htrib : byteAt c.operands 3 = byteOf n.val)
    (hmask : byteAt c.operands 5 = mask.code) (hfew : 1 ≤ (byteAt c.operands 2).toNat) (hmany : (byteAt c.operands 2).toNat ≤ 64)
    (htags : wordAt c.operands 0 + (byteAt c.operands 2).toNat ≤ 1008)
    (hchannels : (byteAt c.operands 4).toNat + (byteAt c.operands 2).toNat ≤ 64) :
    workWriteChannels c s =
      complete c .ok [byteAt c.operands 2]
        { s with
          channels :=
            writeEntries n mask (byteAt c.operands 2).toNat (wordAt c.operands 0) (byteAt c.operands 4).toNat s.channels } := by
  have hcount : byteOf (byteAt c.operands 2).toNat = byteAt c.operands 2 := by simp [byteOf]
  simp only [workWriteChannels, htrib, hmask, tribOf_byteOf, maskOf_code, hcount]
  exact if_pos ⟨hfew, hmany, htags, hchannels⟩

theorem workWriteChannels_of_bad
    (h : (byteAt c.operands 2).toNat = 0 ∨ 64 < (byteAt c.operands 2).toNat
      ∨ 1008 < wordAt c.operands 0 + (byteAt c.operands 2).toNat ∨ 64 < (byteAt c.operands 4).toNat + (byteAt c.operands 2).toNat
      ∨ 7 < (byteAt c.operands 3).toNat ∨ 3 < (byteAt c.operands 5).toNat) :
    workWriteChannels c s = complete c .range [] s := by
  unfold workWriteChannels
  dsimp only
  split
  · next htrib hmask =>
    have ht : ¬7 < (byteAt c.operands 3).toNat := fun hbad => by simp [tribOf_of_gt hbad] at htrib
    have hm : ¬3 < (byteAt c.operands 5).toNat := fun hbad => by simp [maskOf_of_gt hbad] at hmask
    exact if_neg (by unfold Config.assignableTags; omega)
  · rfl

end WriteChannels

/-- Settles O55: the writes go through as one, or not at all. -/
theorem writeChannelsWritesConfiguredParts : Obligations.WriteChannelsWritesConfiguredParts := by
  unfold Obligations.WriteChannelsWritesConfiguredParts
  intro c rest s hready hwf
  have hexec : exec .writeChannels s = .next (workWriteChannels c (beginCommand rest s)) := exec_of_ready hready rfl
  constructor
  · intro n mask htrib hmask hfew hmany htags hchannels
    rw [workWriteChannels_of_range htrib hmask hfew hmany htags hchannels] at hexec
    exact ⟨_, answers_complete hexec rfl, writeEntries_wf _ hwf htags, fun tag => get_writeEntries tag _ hwf htags⟩
  · intro hbad
    rw [workWriteChannels_of_bad hbad] at hexec
    exact answers_complete hexec rfl

end Sys2Proof.Proofs.TrunkReceive
end

section
/-! PROOFS. The law of the channel map, operation by operation: an entry opens only towards a port that is UP, and whatever takes a port out of
UP gives up its OPEN entries (R111, R112, R119, R120). -/

namespace Sys2Proof.Proofs.TrunkReceive

open Sys2Proof.Machine Sys2Proof.Safety Sys2Proof.Laws Sys2Proof.Claims Sys2Proof.Proofs.CellLink Sys2Proof.Proofs.CellStore
  Sys2Proof.Proofs.TributaryPorts

/-! ## Maps with OPEN entries at given ports alone -/

/-- A canonical map whose OPEN entries are latched to the tributaries of a set. -/
structure OpensAt (up : Trib → Prop) (m : ChannelMap) : Prop where
  wf : m.wf = true
  latched : ∀ tag n, (m.get tag).current.openFor n = true → up n

/-- The law of the channel map: its OPEN entries are latched to ports that are UP (R111). -/
theorem channelsOk_iff {s : State} : ChannelsOk s ↔ OpensAt (fun n => s.ports.isUp n = true) s.channels :=
  ⟨fun h => ⟨h.1, h.2⟩, fun h => ⟨h.wf, h.latched⟩⟩

namespace OpensAt

variable {up : Trib → Prop} {m : ChannelMap}

theorem mono {up' : Trib → Prop} (h : OpensAt up m) (hup : ∀ n, up n → up' n) : OpensAt up' m :=
  ⟨h.wf, fun tag n ho => hup n (h.latched tag n ho)⟩

/-- An entry written at an assignable tag, OPEN towards the set at most. -/
theorem set (h : OpensAt up m) {tag : Nat} (htag : tag < Config.assignableTags) {e : ChannelEntry}
    (he : ∀ n, e.current.openFor n = true → up n) : OpensAt up (m.set tag e) := by
  refine ⟨wf_set htag h.wf, fun t n ho => ?_⟩
  rw [get_set_entry h.wf] at ho
  split at ho
  · exact he n ho
  · exact h.latched t n ho

/-- The messages of Tn given up leave no entry OPEN towards it (R120). -/
theorem discardFor {n : Trib} {s : State} (h : OpensAt (fun k => k ≠ n → up k) s.channels) : OpensAt up (discardFor n s).channels := by
  refine ⟨wf_changeCurrent h.wf, fun tag k ho => ?_⟩
  rw [get_discardFor_giveUpIf h.wf] at ho
  cases hc : (s.channels.get tag).current with
  | opened l channel next =>
    by_cases hl : l = n
    · simp [hc, hl, giveUpIf, Current.openFor] at ho
    · have hk : l = k := by simpa [hc, hl, giveUpIf, Current.openFor] using ho
      exact h.latched tag k (by simp [hc, hk, Current.openFor]) (hk ▸ hl)
  | idle | discarding | discardingInactive => simp [hc, giveUpIf, Current.openFor] at ho

end OpensAt

/-- The law holds but for the entries latched to one tributary: what is left of it while its port leaves UP. -/
def OtherChannelsOk (n : Trib) (s : State) : Prop := OpensAt (fun k => k ≠ n → s.ports.isUp k = true) s.channels

theorem otherChannelsOk_of_channelsOk {s : State} (h : ChannelsOk s) (n : Trib) : OtherChannelsOk n s :=
  (channelsOk_iff.mp h).mono fun _ hup _ => hup

/-! ## What the law reads -/

theorem channelsOk_of_leaves {s t : State} (h : ChannelsOk s) (hchannels : t.channels = s.channels) (hports : t.ports = s.ports) :
    ChannelsOk t := by
  simpa only [ChannelsOk, hchannels, hports] using h

/-- The port table and the records of the receivers alone say which ports are UP (R36). -/
theorem channelsOk_of_records {s t : State} (h : ChannelsOk s) (hchannels : t.channels = s.channels)
    (hrecords : t.ports.rxLocked = s.ports.rxLocked ∧ t.ports.table = s.ports.table) : ChannelsOk t := by
  obtain ⟨hrxLocked, htable⟩ := hrecords
  refine channelsOk_iff.mpr (hchannels ▸ (channelsOk_iff.mp h).mono fun n hn => ?_)
  exact (isUp_congr (by rw [htable]) (by rw [hrxLocked])).trans hn

theorem otherChannelsOk_of_records {n : Trib} {s t : State} (h : OtherChannelsOk n s) (hchannels : t.channels = s.channels)
    (hrecords : t.ports.rxLocked = s.ports.rxLocked ∧ t.ports.table = s.ports.table) : OtherChannelsOk n t := by
  obtain ⟨hrxLocked, htable⟩ := hrecords
  unfold OtherChannelsOk
  rw [hchannels]
  exact h.mono fun k hup hk => (isUp_congr (by rw [htable]) (by rw [hrxLocked])).trans (hup hk)

/-! ## What opens and closes a port -/

theorem isUp_setRxLocked_other {n k : Trib} (h : k ≠ n) (b : Bool) (s : State) :
    (setRxLocked n b s).ports.isUp k = s.ports.isUp k :=
  isUp_congr rfl (get_set_other _ h b)

theorem isUp_setTable_other {n k : Trib} (h : k ≠ n) (e : PortEntry) (s : State) :
    (setTable (s.ports.table.set n e) s).ports.isUp k = s.ports.isUp k :=
  isUp_congr (by rw [setTable_ports, get_set_other _ h]) rfl

theorem otherChannelsOk_setRxLocked {n : Trib} {s : State} (h : ChannelsOk s) (b : Bool) : OtherChannelsOk n (setRxLocked n b s) :=
  (channelsOk_iff.mp h).mono fun _ hup hk => (isUp_setRxLocked_other hk b s).trans hup

theorem otherChannelsOk_setTable {n : Trib} {s : State} (h : ChannelsOk s) (e : PortEntry) :
    OtherChannelsOk n (setTable (s.ports.table.set n e) s) :=
  (channelsOk_iff.mp h).mono fun _ hup hk => (isUp_setTable_other hk e s).trans hup

/-- A change that leaves the map and every port but one, and leaves that port UP if it was. -/
theorem channelsOk_of_others {n : Trib} {s t : State} (h : ChannelsOk s) (ht : OtherChannelsOk n t) (hchannels : t.channels = s.channels)
    (hn : s.ports.isUp n = true → t.ports.isUp n = true) : ChannelsOk t := by
  refine channelsOk_iff.mpr ⟨ht.wf, fun tag k ho => ?_⟩
  by_cases hk : k = n
  · subst hk
    exact hn ((channelsOk_iff.mp h).latched tag k (hchannels ▸ ho))
  · exact ht.latched tag k ho hk

/-- A port that has left UP closes its downlink, and its OPEN entries are given up (R120). -/
theorem channelsOk_closeDownlink {n : Trib} {s : State} (h : OtherChannelsOk n s) : ChannelsOk (closeDownlink n s) :=
  channelsOk_iff.mpr (OpensAt.discardFor (s := flushDown n s) h)

theorem channelsOk_setRxLocked_true {n : Trib} {s : State} (h : ChannelsOk s) : ChannelsOk (setRxLocked n true s) := by
  refine channelsOk_of_others h (otherChannelsOk_setRxLocked h true) rfl fun hup => ?_
  rw [isUp_eq, Bool.and_eq_true] at hup
  rw [isUp_eq, setRxLocked_ports, get_set_same, hup.1]
  rfl

theorem channelsOk_postStateChange (n : Trib) (before after : PortState) {s : State} (h : ChannelsOk s) :
    ChannelsOk (postStateChange n before after s) :=
  channelsOk_of_leaves h (by simp) (by simp)

theorem otherChannelsOk_postStateChange {n : Trib} {s : State} (h : OtherChannelsOk n s) (before after : PortState) :
    OtherChannelsOk n (postStateChange n before after s) :=
  otherChannelsOk_of_records h (by simp) (by simp)

theorem channelsOk_portLockLost (turn : Turn) (n : Trib) {s : State} (h : ChannelsOk s) : ChannelsOk (portLockLost turn n s) := by
  have lost : OtherChannelsOk n (setRxLocked n false s) := otherChannelsOk_setRxLocked h false
  have closes {t : State} (ht : OtherChannelsOk n t) : ChannelsOk (closeDownlink n (endIngress n t)) :=
    channelsOk_closeDownlink (otherChannelsOk_of_records ht (by simp) (by simp))
  unfold portLockLost
  dsimp only
  split
  · exact postBeside_cases (closes (otherChannelsOk_postStateChange lost _ _)) (channelsOk_postStateChange n _ _ (closes lost))
  · next he =>
    refine channelsOk_of_others h lost rfl fun hup => ?_
    rw [isUp_of_disabled (by simpa using he)] at hup
    cases hup

theorem channelsOk_disableTraffic {n : Trib} {s : State} (h : OtherChannelsOk n s) : ChannelsOk (disableTraffic n s) :=
  channelsOk_closeDownlink (otherChannelsOk_of_records h (by simp) (by simp))

/-- Settings leave a port UP unless they disable it, and what disables it closes its downlink (R50, R51). -/
theorem channelsOk_applyPortEntry (turn : Turn) (n : Trib) (e : PortEntry) {s : State} (h : ChannelsOk s) :
    ChannelsOk (applyPortEntry turn n e s) := by
  have written : OtherChannelsOk n (setTable (s.ports.table.set n e) s) := otherChannelsOk_setTable h e
  unfold applyPortEntry
  dsimp only
  split
  · exact postBeside_cases (channelsOk_disableTraffic (otherChannelsOk_postStateChange written _ _))
      (channelsOk_postStateChange n _ _ (channelsOk_disableTraffic written))
  · next hclose =>
    have kept : ChannelsOk (setTable (s.ports.table.set n e) s) := by
      refine channelsOk_of_others h written rfl fun hup => ?_
      rw [isUp_eq, Bool.and_eq_true] at hup
      obtain ⟨he, hr⟩ := hup
      have henable : e.enable = true := by
        rw [he, Bool.true_and] at hclose
        simpa using hclose
      rw [isUp_eq, table_setTable, henable]
      exact hr
    exact postBeside_cases (channelsOk_postStateChange n _ _ kept) (channelsOk_postStateChange n _ _ kept)

/-! ## Arrivals from the trunk -/

/-- A current part replaced, OPEN towards an UP port at most. -/
theorem channelsOk_setCurrent {tag : Tag} {c : Current} {s : State} (h : ChannelsOk s) (htag : tag.toNat < Config.assignableTags)
    (hc : ∀ n, c.openFor n = true → s.ports.isUp n = true) : ChannelsOk (setCurrent tag c s) :=
  channelsOk_iff.mpr ((channelsOk_iff.mp h).set htag hc)

/-- A current part replaced by one that is not OPEN. -/
theorem channelsOk_setCurrent_closed {tag : Tag} {c : Current} {s : State} (h : ChannelsOk s) (htag : tag.toNat < Config.assignableTags)
    (hc : ∀ n, c.openFor n = false) : ChannelsOk (setCurrent tag c s) :=
  channelsOk_setCurrent h htag fun n ho => absurd (ho.symm.trans (hc n)) (by simp)

theorem channelsOk_offerDown (n : Trib) (c : Cell) {s : State} (h : ChannelsOk s) : ChannelsOk (offerDown n c s) :=
  channelsOk_of_leaves h (by simp) (by simp)

theorem channelsOk_giveUpDown {tag : Tag} {s : State} (h : ChannelsOk s) (htag : tag.toNat < Config.assignableTags) (n : Trib)
    (channel : Channel) (next : Index) : ChannelsOk (giveUpDown tag n channel next s) :=
  channelsOk_of_leaves (channelsOk_setCurrent_closed h htag (c := .discarding n channel next true) fun _ => rfl) rfl rfl

theorem channelsOk_closeGivenUp {tag : Tag} {s : State} (h : ChannelsOk s) (htag : tag.toNat < Config.assignableTags) :
    ChannelsOk (closeGivenUp tag s) := by
  unfold closeGivenUp
  split
  · next n channel next _ =>
    have converted : ChannelsOk (writeConversion n channel next s) := channelsOk_of_leaves h (by simp) (by simp)
    exact channelsOk_setCurrent_closed converted htag fun _ => rfl
  · exact channelsOk_setCurrent_closed h htag fun _ => rfl
  · exact channelsOk_setCurrent_closed h htag fun _ => rfl
  · exact h
  · exact h

/-- A message opens its entry only when its port was found UP (R112). -/
theorem channelsOk_startDown {tag : Tag} {s : State} (h : ChannelsOk s) (htag : tag.toNat < Config.assignableTags) (c : Cell) :
    ChannelsOk (startDown tag c s) := by
  have dropped {t : State} (n : Trib) (channel : Channel) (ht : ChannelsOk t) :
      ChannelsOk (countDown n (.addDiscarded 1) (setCurrent tag (.discarding n channel 1 false) t)) :=
    channelsOk_of_leaves (channelsOk_setCurrent_closed ht htag (c := .discarding n channel 1 false) fun _ => rfl) rfl rfl
  unfold startDown
  dsimp only
  split
  · have counted : ChannelsOk (countTrunk .bumpInactive s) := channelsOk_of_leaves h rfl rfl
    split
    · exact channelsOk_setCurrent_closed counted htag fun _ => rfl
    · exact counted
  · split
    · have counted : ChannelsOk (countDown (s.channels.get tag.toNat).trib .bumpPortNotUp s) := channelsOk_of_leaves h rfl rfl
      split
      · exact dropped _ _ counted
      · exact counted
    · next hup =>
      have offered := channelsOk_offerDown (s.channels.get tag.toNat).trib
        { c with tag := (s.channels.get tag.toNat).channel.setWidth 10 } h
      split
      · split
        · refine channelsOk_setCurrent offered htag fun n hn => ?_
          obtain rfl : (s.channels.get tag.toNat).trib = n := by simpa [Current.openFor] using hn
          simpa using hup
        · exact offered
      · split
        · exact dropped _ _ offered
        · exact offered

theorem channelsOk_restartDown {tag : Tag} {s : State} (h : ChannelsOk s) (htag : tag.toNat < Config.assignableTags) (c : Cell) :
    ChannelsOk (restartDown tag c s) := by
  unfold restartDown
  refine channelsOk_startDown (channelsOk_setCurrent_closed ?_ htag fun _ => rfl) htag c
  split
  · exact channelsOk_of_leaves h rfl rfl
  all_goals exact h

section Between

variable {between : State → State} (hb : ∀ {s}, ChannelsOk s → ChannelsOk (between s)) {s : State} (h : ChannelsOk s)
include hb h

/-- A message goes on towards the port it is latched to, which the law has UP (R115, R116). -/
theorem channelsOk_continueDown {tag : Tag} (htag : tag.toNat < Config.assignableTags) {n : Trib} (hup : s.ports.isUp n = true)
    (channel : Channel) (next : Index) (c : Cell) : ChannelsOk (continueDown between tag n channel next c s) := by
  unfold continueDown
  dsimp only
  split
  · have gap : ChannelsOk (giveUpDown tag n channel next (countTrunk .bumpContinuation s)) :=
      channelsOk_giveUpDown (channelsOk_of_leaves h rfl rfl) htag n channel next
    split
    · exact channelsOk_closeGivenUp gap htag
    · exact gap
  · have offered := channelsOk_offerDown n { c with tag := channel.setWidth 10 } h
    split
    · refine channelsOk_setCurrent offered htag fun k hk => ?_
      split at hk
      · cases hk
      · obtain rfl : n = k := by simpa [Current.openFor] using hk
        simpa using hup
    · have refused := channelsOk_giveUpDown offered htag n channel next
      split
      · exact channelsOk_closeGivenUp (hb refused) htag
      · exact refused

theorem channelsOk_channelArrival {c : Cell} (htag : c.tag.toNat < Config.assignableTags) : ChannelsOk (channelArrival between c s) := by
  have up {n : Trib} {channel : Channel} {next : Index} (ho : (s.channels.get c.tag.toNat).current = .opened n channel next) :
      s.ports.isUp n = true :=
    (channelsOk_iff.mp h).latched c.tag.toNat n (by simp [ho, Current.openFor])
  unfold channelArrival
  split
  case h_1 | h_2 => exact channelsOk_startDown h htag c
  case h_3 | h_4 => exact channelsOk_of_leaves h rfl rfl
  case h_5 ho _ | h_6 ho _ => exact channelsOk_continueDown hb h htag (up ho) _ _ c
  case h_7 | h_8 | h_11 | h_12 | h_15 | h_16 => exact channelsOk_restartDown h htag c
  case h_9 | h_13 => exact h
  case h_10 | h_14 => exact channelsOk_closeGivenUp h htag

/-- Only a cell on an assignable tag reaches an entry (R107). -/
theorem channelsOk_trunkArrival (c : Cell) : ChannelsOk (trunkArrival between c s) := by
  unfold trunkArrival
  split
  · next htag =>
    split
    · exact channelsOk_channelArrival hb h htag
    · have counted : ChannelsOk (countTrunk .bumpMalformed s) := channelsOk_of_leaves h rfl rfl
      unfold malformedDown
      dsimp only
      split
      · exact channelsOk_giveUpDown counted htag _ _ _
      all_goals exact counted
  · split
    · exact channelsOk_of_leaves h (by simp) (by simp)
    · split
      · exact h
      · exact channelsOk_of_leaves h rfl rfl

theorem channelsOk_handOn (l : Link) (c : Cell) : ChannelsOk (handOn between l c s) := by
  unfold handOn
  split
  · exact h
  · cases l with
    | trunk => exact channelsOk_trunkArrival hb h c
    | tributary n => exact channelsOk_of_records h (by simp) (by simp)

end Between

end Sys2Proof.Proofs.TrunkReceive
end

section
/-! PROOFS. What slots, boundaries, cell times and the work of commands leave of the channel map. -/

namespace Sys2Proof.Proofs.TrunkReceive

open Sys2Proof.Machine Sys2Proof.Laws Sys2Proof.Proofs.CellLink Sys2Proof.Proofs.CellStore

/-! ## Slots and cell times -/

theorem takeUp_channels {n : Trib} {s t : State} {c : Cell} (h : takeUp n s = some (c, t)) : t.channels = s.channels := by
  obtain ⟨rest, -, rfl⟩ := takeUp_eq_some h
  rfl

theorem afterSend_channels (n : Trib) (c : Cell) (s : State) : (afterSend n c s).channels = s.channels := by
  rw [afterSend_eq]

theorem decideSpare_channels (s : State) : (decideSpare s).state.channels = s.channels := by
  unfold decideSpare
  split
  · rfl
  · dsimp only
    split
    · rfl
    · split
      · next htake => exact (afterSend_channels _ _ _).trans ((takeUp_channels htake).trans rfl)
      · rfl

theorem decideSlot_channels (o : Owner) (s : State) : (decideSlot o s).state.channels = s.channels := by
  cases o with
  | trib n =>
    simp only [decideSlot, decideOwn]
    split
    · rfl
    · split
      · next htake => exact (afterSend_channels _ _ _).trans (takeUp_channels htake)
      · exact decideSpare_channels s
  | management =>
    simp only [decideSlot, decideManagement]
    split
    · rfl
    · split
      · rfl
      · exact decideSpare_channels s
  | openSlot => exact decideSpare_channels s

theorem carrySlot_channels (length : Nat) (d : Decision) : (carrySlot length d).channels = d.state.channels := by
  unfold carrySlot advanceSlot
  split <;> simp [surveyTakesBoundary_leaves]

theorem settleNotices_channels (s : State) : (settleNotices s).channels = s.channels := by
  unfold settleNotices
  split
  · rfl
  · simp [noticesTakeBoundary_leaves]

theorem slotEvent_channels (s : State) : (slotEvent s).channels = s.channels := by
  unfold slotEvent
  split
  · rfl
  · exact (carrySlot_channels _ _).trans ((decideSlot_channels _ _).trans (settleNotices_channels s))

theorem cellTimeEvent_channels (n : Trib) (s : State) : (cellTimeEvent n s).channels = s.channels := by
  unfold cellTimeEvent
  split
  · split
    · next htake =>
      obtain ⟨-, -, rfl⟩ := takeDown_eq_some htake
      rfl
    · rfl
  · rfl

/-! ## Boundaries -/

theorem planAndSurvey_channels {turn : Turn} {taking : State → State} (h : ∀ s, (taking s).channels = s.channels) (s : State) :
    (planAndSurvey turn taking s).channels = s.channels :=
  postBeside_leaves (field := State.channels) (by simp) h s

theorem deliverBoundary_channels {blocks : State → State} (h : ∀ s, (blocks s).channels = s.channels) (noticesLate : Bool) (s : State) :
    (deliverBoundary noticesLate blocks s).channels = s.channels := by
  unfold deliverBoundary
  dsimp only
  repeat' split
  all_goals simp [h, noticesTakeBoundary_leaves]

theorem boundaryEvent_channels (order : BoundaryOrder) (s : State) : (boundaryEvent order s).channels = s.channels := by
  unfold boundaryEvent
  split
  · simp [surveyTakesBoundary_leaves]
  · exact deliverBoundary_channels (planAndSurvey_channels fun s => by simp [plansTakeBoundary_leaves, surveyCountsBoundary_eq]) _ s
  · exact deliverBoundary_channels (planAndSurvey_channels fun s => by simp [plansTakeBoundary_leaves, surveyCountsBoundary_eq]) _ s
  · exact deliverBoundary_channels (fun s => by simp [plansTakeBoundary_leaves]) _ s

theorem revertEvent_channels (s : State) : (revertEvent s).channels = s.channels := by
  unfold revertEvent
  split <;> simp [plansTakeBoundary_leaves]

theorem expiryEvent_channels (s : State) : (expiryEvent s).channels = s.channels := by
  unfold expiryEvent
  split <;> simp [noticesTakeBoundary_leaves]

theorem surveyDoneEvent_channels (s : State) : (surveyDoneEvent s).channels = s.channels := by
  unfold surveyDoneEvent
  split <;> simp [surveyTakesBoundary_leaves]

/-! ## The work of commands -/

/-- The work of a command that neither writes the channel map nor closes a port. -/
def LeavesMap (work : TakenCommand → State → State) : Prop := ∀ c s, (work c s).channels = s.channels

@[simp] theorem answerRange_channels (c : TakenCommand) (s : State) : (answerRange c s).channels = s.channels := rfl

@[simp] theorem writeEditPlan_channels (c : TakenCommand) (change : Plan → Plan) (s : State) :
    (writeEditPlan c change s).channels = s.channels := by
  unfold writeEditPlan
  split <;> rfl

theorem leavesMap_echo : LeavesMap workEcho := fun _ _ => rfl

theorem leavesMap_identify : LeavesMap workIdentify := fun _ _ => rfl

theorem leavesMap_readStatus : LeavesMap workReadStatus := fun _ _ => rfl

theorem leavesMap_selectEditPlan : LeavesMap workSelectEditPlan := fun c s => by
  unfold workSelectEditPlan
  split <;> rfl

theorem leavesMap_writeSlots : LeavesMap workWriteSlots := fun c s => by
  unfold workWriteSlots
  dsimp only
  repeat' split
  all_goals simp

theorem leavesMap_setCycleLength : LeavesMap workSetCycleLength := fun c s => by
  unfold workSetCycleLength
  dsimp only
  split <;> simp

theorem leavesMap_writeTributaryEntry : LeavesMap workWriteTributaryEntry := fun c s => by
  unfold workWriteTributaryEntry
  split <;> simp

theorem leavesMap_setPlanOptions : LeavesMap workSetPlanOptions := fun c s => by
  unfold workSetPlanOptions
  split <;> simp

theorem leavesMap_copyPlan : LeavesMap workCopyPlan := fun c s => writeEditPlan_channels c _ s

theorem leavesMap_readSlots : LeavesMap workReadSlots := fun c s => by
  unfold workReadSlots
  dsimp only
  repeat' split
  all_goals rfl

theorem leavesMap_readTributaryEntry : LeavesMap workReadTributaryEntry := fun c s => by
  unfold workReadTributaryEntry
  split <;> rfl

theorem leavesMap_readPlanOptions : LeavesMap workReadPlanOptions := fun c s => by
  unfold workReadPlanOptions
  split <;> rfl

theorem leavesMap_switchPlan : LeavesMap workSwitchPlan := fun c s => by
  unfold workSwitchPlan
  repeat' split
  all_goals rfl

theorem leavesMap_confirmPlan : LeavesMap workConfirmPlan := fun c s => by
  unfold workConfirmPlan
  split <;> rfl

theorem leavesMap_readPort : LeavesMap workReadPort := fun c s => by
  unfold workReadPort
  split <;> rfl

theorem leavesMap_readChannel : LeavesMap workReadChannel := fun c s => by
  unfold workReadChannel
  dsimp only
  split <;> rfl

theorem leavesMap_readCounters : LeavesMap workReadCounters := fun c s => by
  unfold workReadCounters
  split <;> rfl

theorem leavesMap_clearCounters : LeavesMap workClearCounters := fun c s => by
  unfold workClearCounters
  split <;> rfl

theorem leavesMap_startSurvey : LeavesMap workStartSurvey := fun c s => by
  unfold workStartSurvey
  dsimp only
  split <;> rfl

theorem leavesMap_stopSurvey : LeavesMap workStopSurvey := fun c s => by
  unfold workStopSurvey
  dsimp only
  repeat' split
  all_goals rfl

theorem leavesMap_readSurvey : LeavesMap workReadSurvey := fun c s => by
  unfold workReadSurvey
  split <;> rfl

theorem leavesMap_ackNotice : LeavesMap workAckNotice := fun c s => by
  unfold workAckNotice
  dsimp only
  repeat' split
  all_goals rfl

theorem leavesMap_setNoticeOptions : LeavesMap workSetNoticeOptions := fun c s => by
  unfold workSetNoticeOptions
  dsimp only
  split <;> rfl

end Sys2Proof.Proofs.TrunkReceive
end

section
/-! PROOFS. Every step keeps the law of the channel map: only trunk arrivals and the events that move a port or the map reach what it reads
(R111, R112, R119, R120, R123, R125). -/

namespace Sys2Proof.Proofs.TrunkReceive

open Sys2Proof.Machine Sys2Proof.Safety Sys2Proof.Laws Sys2Proof.Claims Sys2Proof.Proofs.CellLink Sys2Proof.Proofs.CellStore
  Sys2Proof.Proofs.TributaryPorts

/-! ## Header tests and signals -/

theorem channelsOk_setReceiver (l : Link) (r : Receiver) {s : State} (h : ChannelsOk s) : ChannelsOk (setReceiver l r s) :=
  channelsOk_of_leaves h (by simp) (by simp)

theorem channelsOk_setSignal (l : Link) (b : Bool) {s : State} (h : ChannelsOk s) : ChannelsOk (setSignal l b s) :=
  channelsOk_of_leaves h (by simp) (by simp)

/-- Messages given up open no entry (R119, R120). -/
theorem channelsOk_discardEach (ns : List Trib) : ∀ {s : State}, ChannelsOk s → ChannelsOk (discardEach ns s) := by
  induction ns with
  | nil => exact fun h => h
  | cons n ns ih => exact fun h => ih (channelsOk_iff.mpr (OpensAt.discardFor (otherChannelsOk_of_channelsOk h n)))

theorem channelsOk_reportLockLost (turn : Turn) (l : Link) {s : State} (h : ChannelsOk s) : ChannelsOk (reportLockLost turn l s) := by
  cases l with
  | trunk =>
    have posted : ChannelsOk (post .trunkRxChange 0 0 (countTrunk .bumpLockLosses s)) := channelsOk_of_leaves h (by simp) (by simp)
    have discarded : ChannelsOk (discardAll (post .trunkRxChange 0 0 (countTrunk .bumpLockLosses s))) := channelsOk_discardEach allTribs posted
    exact channelsOk_of_leaves discarded (by simp [reportLockLost]) (by simp [reportLockLost])
  | tributary n => exact channelsOk_portLockLost turn n h

theorem channelsOk_countBadHeader (l : Link) {s : State} (h : ChannelsOk s) : ChannelsOk (countBadHeader l s) := by
  rw [countBadHeader_eq]
  exact channelsOk_of_leaves h rfl rfl

theorem channelsOk_seekTest (l : Link) (bytes : List Byte) {s : State} (h : ChannelsOk s) : ChannelsOk (seekTest l bytes s) := by
  unfold seekTest
  dsimp only
  split
  · split <;> exact channelsOk_setReceiver l _ h
  · exact h

theorem channelsOk_recordLocked (l : Link) {s : State} (h : ChannelsOk s) : ChannelsOk (recordLocked l s) := by
  cases l with
  | trunk => exact h
  | tributary n => exact channelsOk_setRxLocked_true h

theorem channelsOk_enterLocked (turn : Turn) (l : Link) (bytes : List Byte) {s : State} (h : ChannelsOk s) :
    ChannelsOk (enterLocked turn l bytes s) := by
  have recorded {r : Receiver} : ChannelsOk (recordLocked l (setReceiver l r s)) := channelsOk_recordLocked l (channelsOk_setReceiver l r h)
  have posted {t : State} (b a : Ports) (ht : ChannelsOk t) : ChannelsOk (postLocked l b a t) :=
    channelsOk_of_leaves ht (by simp) (by simp)
  unfold enterLocked
  exact postBeside_cases (channelsOk_handOn (fun ht => ht) (posted _ _ recorded) l _)
    (posted _ _ (channelsOk_handOn (fun ht => ht) recorded l _))

theorem channelsOk_confirmTest (turn : Turn) (l : Link) (bytes : List Byte) {s : State} (h : ChannelsOk s) :
    ChannelsOk (confirmTest turn l bytes s) := by
  unfold confirmTest
  dsimp only
  split
  · split
    · split
      · exact channelsOk_setReceiver l _ h
      · exact channelsOk_enterLocked turn l bytes h
    · exact channelsOk_setReceiver l _ h
  · exact h

theorem channelsOk_lockedTestWith {between : State → State} (hb : ∀ {s}, ChannelsOk s → ChannelsOk (between s)) (turn : Turn) (l : Link)
    (bytes : List Byte) {s : State} (h : ChannelsOk s) : ChannelsOk (lockedTestWith between turn l bytes s) := by
  unfold lockedTestWith
  dsimp only
  split
  · split
    · exact channelsOk_handOn hb (channelsOk_setReceiver l _ h) l _
    · split
      · exact channelsOk_countBadHeader l (channelsOk_setReceiver l _ h)
      · exact channelsOk_reportLockLost turn l (channelsOk_countBadHeader l (channelsOk_setReceiver l _ h))
  · exact h

theorem channelsOk_signalLossEvent (turn : Turn) (l : Link) {s : State} (h : ChannelsOk s) : ChannelsOk (signalLossEvent turn l s) := by
  have sought := channelsOk_setReceiver l (seekAt 0) (channelsOk_setSignal l false h)
  unfold signalLossEvent
  dsimp only
  split
  · exact channelsOk_setSignal l false h
  · split
    · exact channelsOk_reportLockLost turn l sought
    · exact sought

theorem channelsOk_signalReturnEvent (l : Link) {s : State} (h : ChannelsOk s) : ChannelsOk (signalReturnEvent l s) := by
  unfold signalReturnEvent
  split
  · exact h
  · split
    · exact channelsOk_setSignal l true h
    · exact channelsOk_setReceiver l _ (channelsOk_setSignal l true h)

/-! ## Executions -/

theorem channelsOk_complete (c : TakenCommand) (r : Result) (d : List Byte) {s : State} (h : ChannelsOk s) :
    ChannelsOk (complete c r d s) :=
  channelsOk_of_leaves h rfl rfl

theorem channelsOk_runCommand {k : CommandKind} {work : TakenCommand → State → State} (hw : ∀ c {s}, ChannelsOk s → ChannelsOk (work c s))
    {s : State} (h : ChannelsOk s) : ChannelsOk (runCommand k work s) :=
  runCommand_cases h (fun c _ _ => channelsOk_complete c _ _ (channelsOk_of_leaves h rfl rfl))
    fun c _ _ => hw c (channelsOk_of_leaves h rfl rfl)

theorem channelsOk_workWritePort (turn : Turn) (c : TakenCommand) {s : State} (h : ChannelsOk s) :
    ChannelsOk (workWritePort turn c s) := by
  unfold workWritePort
  dsimp only
  split
  · split
    · exact channelsOk_complete c _ _ (channelsOk_applyPortEntry turn _ _ h)
    · exact channelsOk_complete c _ _ h
  · exact channelsOk_complete c _ _ h

theorem channelsOk_workFlushPort (c : TakenCommand) {s : State} (h : ChannelsOk s) : ChannelsOk (workFlushPort c s) := by
  have flushed (n : Trib) : ChannelsOk (flushUplink n s) := channelsOk_of_records h (by simp) (by simp)
  have closed (n : Trib) {t : State} (ht : ChannelsOk t) : ChannelsOk (closeDownlink n t) :=
    channelsOk_closeDownlink (otherChannelsOk_of_channelsOk ht n)
  unfold workFlushPort
  dsimp only
  split
  · next n _ =>
    split
    · exact channelsOk_complete c _ _ (flushed n)
    · split
      · exact channelsOk_complete c _ _ (closed n h)
      · split
        · exact channelsOk_complete c _ _ (closed n (flushed n))
        · exact channelsOk_complete c _ _ h
  · exact channelsOk_complete c _ _ h

/-- WRITE CHANNELS writes configured parts alone, and so opens no entry (R122, R123). -/
theorem channelsOk_workWriteChannels (c : TakenCommand) {s : State} (h : ChannelsOk s) : ChannelsOk (workWriteChannels c s) := by
  obtain ⟨hwf, hlatched⟩ := channelsOk_iff.mp h
  unfold workWriteChannels
  dsimp only
  split
  · split
    · next hrange =>
      obtain ⟨-, -, htags, -⟩ := hrange
      refine channelsOk_complete c _ _ (channelsOk_iff.mpr ⟨writeEntries_wf _ hwf htags, fun tag k ho => hlatched tag k ?_⟩)
      rw [get_writeEntries tag _ hwf htags] at ho
      split at ho <;> exact ho
    · exact channelsOk_complete c _ _ h
  · exact channelsOk_complete c _ _ h

/-- RESTART sets every entry IDLE (R125). -/
theorem channelsOk_workRestart (c : TakenCommand) {s : State} (h : ChannelsOk s) : ChannelsOk (workRestart c s) := by
  obtain ⟨hwf, -⟩ := channelsOk_iff.mp h
  refine channelsOk_complete c _ _ (channelsOk_iff.mpr ⟨wf_changeCurrent hwf, fun tag k ho => ?_⟩)
  have hidle : ((restartBlocks c.seq s).channels.get tag).current = .idle := congrArg _ (get_changeCurrent rfl tag hwf)
  rw [hidle] at ho
  cases ho

/-! ## Every step -/

theorem channelsOk_runStoreEvent (e : StoreEvent) {s : State} (h : ChannelsOk s) : ChannelsOk (runStoreEvent e s) := by
  cases e with
  | slot => exact channelsOk_of_leaves h (slotEvent_channels s) (slotEvent_leaves s).2.2
  | cellTime n => exact channelsOk_of_leaves h (cellTimeEvent_channels n s) (cellTimeEvent_leaves n s).2.2
  | headerTest n bytes turn =>
    simp only [runStoreEvent]
    split
    · exact channelsOk_confirmTest turn _ bytes h
    · exact channelsOk_lockedTestWith (fun ht => ht) turn _ bytes h
  | signalLoss n turn => exact channelsOk_signalLossEvent turn _ h
  | writePort turn => exact channelsOk_runCommand (fun c _ => channelsOk_workWritePort turn c) h
  | flushPort => exact channelsOk_runCommand (fun c _ => channelsOk_workFlushPort c) h

theorem channelsOk_runStoreEvents (events : List StoreEvent) : ∀ {s : State}, ChannelsOk s → ChannelsOk (runStoreEvents events s) := by
  induction events with
  | nil => exact fun h => h
  | cons e rest ih => exact fun h => ih (channelsOk_runStoreEvent e h)

/-- An event of the running part that keeps the law of the channel map keeps it as a command. -/
theorem channelsOk_whileRunning {event : State → State} {s : State} (h : ChannelsOk s) (he : ChannelsOk (event s)) :
    ChannelsOk (whileRunning s event) :=
  whileRunning_cases h fun _ => he

/-- An event that leaves the channel map and the ports. -/
theorem channelsOk_event {event : State → State} (hchannels : ∀ s, (event s).channels = s.channels) (hports : ∀ s, (event s).ports = s.ports)
    {s : State} (h : ChannelsOk s) : ChannelsOk (whileRunning s event) :=
  channelsOk_whileRunning h (channelsOk_of_leaves h (hchannels s) (hports s))

/-- A command whose work leaves the channel map and the blocks that carry cells. -/
theorem channelsOk_command {k : CommandKind} {work : TakenCommand → State → State} (hmap : LeavesMap work)
    (hw : ∀ c s, carriage (work c s) = carriage s) {s : State} (h : ChannelsOk s) : ChannelsOk (whileRunning s (runCommand k work)) := by
  refine channelsOk_whileRunning h (channelsOk_runCommand (fun c t ht => channelsOk_of_leaves ht (hmap c t) ?_) h)
  have hcarriage := hw c t
  simp only [carriage, Prod.mk.injEq] at hcarriage
  obtain ⟨-, -, -, hports, -⟩ := hcarriage
  exact hports

theorem exec_keeps_channels (i : Instr) (s t : State) (h : ChannelsOk s) (ht : exec i s = .next t) : ChannelsOk t := by
  cases i <;> injection ht with ht <;> subst ht
  case powerOn => exact channelsOk_of_leaves h rfl rfl
  case resetN =>
    unfold resetNEvent
    dsimp only
    split <;> exact channelsOk_of_leaves h rfl rfl
  case hardResetEnd =>
    unfold hardResetEndEvent
    split
    · exact channelsOk_afterHardReset _ _ _ _
    · exact h
  case signalLoss l turn => exact channelsOk_signalLossEvent turn l h
  case signalReturn l => exact channelsOk_signalReturnEvent l h
  case seekHeaderTest l bytes => exact channelsOk_whileRunning h (channelsOk_seekTest l bytes h)
  case confirmHeaderTest l bytes turn => exact channelsOk_whileRunning h (channelsOk_confirmTest turn l bytes h)
  case lockedHeaderTest l bytes between turn =>
    exact channelsOk_whileRunning h (channelsOk_lockedTestWith (channelsOk_runStoreEvents between) turn l bytes h)
  case slot => exact channelsOk_event slotEvent_channels (fun s => (slotEvent_leaves s).2.2) h
  case tributaryCellTime n => exact channelsOk_event (cellTimeEvent_channels n) (fun s => (cellTimeEvent_leaves n s).2.2) h
  case cycleBoundary order => exact channelsOk_event (boundaryEvent_channels order) (fun s => (boundaryEvent_leaves order s).2.2) h
  case planReverted => exact channelsOk_event revertEvent_channels (fun s => (revertEvent_leaves s).2.2) h
  case noticeRepeatExpiry => exact channelsOk_event expiryEvent_channels (fun s => (expiryEvent_leaves s).2.2) h
  case surveyDone => exact channelsOk_event surveyDoneEvent_channels (fun s => (surveyDoneEvent_leaves s).2.2) h
  case unknownKind =>
    exact channelsOk_event (runUnknown_keeps (field := State.channels) fun _ _ => rfl)
      (runUnknown_keeps (field := State.ports) fun _ _ => rfl) h
  case restart => exact channelsOk_whileRunning h (channelsOk_runCommand (fun c _ => channelsOk_workRestart c) h)
  case writePort turn => exact channelsOk_whileRunning h (channelsOk_runCommand (fun c _ => channelsOk_workWritePort turn c) h)
  case flushPort => exact channelsOk_whileRunning h (channelsOk_runCommand (fun c _ => channelsOk_workFlushPort c) h)
  case writeChannels => exact channelsOk_whileRunning h (channelsOk_runCommand (fun c _ => channelsOk_workWriteChannels c) h)
  case echo => exact channelsOk_command leavesMap_echo carriage_echo h
  case identify => exact channelsOk_command leavesMap_identify carriage_identify h
  case readStatus => exact channelsOk_command leavesMap_readStatus carriage_readStatus h
  case selectEditPlan => exact channelsOk_command leavesMap_selectEditPlan carriage_selectEditPlan h
  case writeSlots => exact channelsOk_command leavesMap_writeSlots carriage_writeSlots h
  case setCycleLength => exact channelsOk_command leavesMap_setCycleLength carriage_setCycleLength h
  case writeTributaryEntry => exact channelsOk_command leavesMap_writeTributaryEntry carriage_writeTributaryEntry h
  case setPlanOptions => exact channelsOk_command leavesMap_setPlanOptions carriage_setPlanOptions h
  case copyPlan => exact channelsOk_command leavesMap_copyPlan carriage_copyPlan h
  case readSlots => exact channelsOk_command leavesMap_readSlots carriage_readSlots h
  case readTributaryEntry => exact channelsOk_command leavesMap_readTributaryEntry carriage_readTributaryEntry h
  case readPlanOptions => exact channelsOk_command leavesMap_readPlanOptions carriage_readPlanOptions h
  case switchPlan => exact channelsOk_command leavesMap_switchPlan carriage_switchPlan h
  case confirmPlan => exact channelsOk_command leavesMap_confirmPlan carriage_confirmPlan h
  case readPort => exact channelsOk_command leavesMap_readPort carriage_readPort h
  case readChannel => exact channelsOk_command leavesMap_readChannel carriage_readChannel h
  case readCounters => exact channelsOk_command leavesMap_readCounters carriage_readCounters h
  case clearCounters => exact channelsOk_command leavesMap_clearCounters carriage_clearCounters h
  case startSurvey => exact channelsOk_command leavesMap_startSurvey carriage_startSurvey h
  case stopSurvey => exact channelsOk_command leavesMap_stopSurvey carriage_stopSurvey h
  case readSurvey => exact channelsOk_command leavesMap_readSurvey carriage_readSurvey h
  case ackNotice => exact channelsOk_command leavesMap_ackNotice carriage_ackNotice h
  case setNoticeOptions => exact channelsOk_command leavesMap_setNoticeOptions carriage_setNoticeOptions h

/-- Settles O7: an entry opens at a port found UP, and what takes a port out of UP gives its OPEN entries up in the same step. -/
theorem stepKeepsOpenChannelsUp : Obligations.StepKeepsOpenChannelsUp := by
  unfold Obligations.StepKeepsOpenChannelsUp
  exact fun _ _ => step_keeps (fun _ _ h => channelsOk_of_leaves h rfl rfl) exec_keeps_channels

end Sys2Proof.Proofs.TrunkReceive
end

section
/-! PROOFS. A data cell from the trunk read past its receiver and its channel entry: what the offers and counts of an arrival leave, and how
its entry moves (R10, R107, R111). -/

namespace Sys2Proof.Proofs.CellStore.LinksApart

open Sys2Proof.Machine Sys2Proof.Laws Sys2Proof.Claims

/-! ## Statements about the downlink read past the links and the channel map -/

variable {s v : State} (h : LinksApart s v)
include h

theorem refusedDown (n : Trib) (full : Bool) : LinksApart (refusedDown n full s) (refusedDown n full v) := by
  cases full with
  | true => exact (h.counted (by rw [h.bank])).posted .downlinkDrops _ 1
  | false => exact (h.counted (by rw [h.bank])).posted .downlinkDrops _ 2

theorem joinedDown (n : Trib) (c : Cell) : LinksApart (joinedDown n c s) (joinedDown n c v) where
  store := by simp only [Claims.joinedDown, h.store]
  ports := h.ports
  plans := h.plans
  scheduler := h.scheduler
  notices := h.notices
  bank := by simp only [Claims.joinedDown, h.bank]

theorem discarded (n : Trib) : LinksApart (discarded n s) (discarded n v) := h.counted (by rw [h.bank])

theorem continuationError : LinksApart (continuationError s) (continuationError v) := h.counted (by rw [h.bank])

theorem droppedNotUp (n : Trib) : LinksApart (droppedNotUp n s) (droppedNotUp n v) := h.counted (by rw [h.bank])

theorem roomDown (n : Trib) : RoomDown n v ↔ RoomDown n s := by
  simp only [RoomDown, h.store, h.ports, h.reserve]

theorem refusesDown (n : Trib) (full : Bool) : RefusesDown n full v ↔ RefusesDown n full s := by
  simp only [RefusesDown, h.store, h.ports, h.reserve]

theorem converted {n : Trib} {channel : Channel} {next : Index} {t : State} :
    Converted n channel next v t ↔ Converted n channel next s t := by
  simp only [Converted, h.roomDown, h.refusesDown, (h.droppedNotUp n).sameTraffic, (h.refusedDown n _).sameTraffic,
    (h.joinedDown n _).store, h.ports, h.notices, h.bank]

/-- A current part is among what such a statement does not read. -/
theorem setCurrent (tag : Tag) (c : Current) : LinksApart s (setCurrent tag c v) :=
  ⟨h.store, h.ports, h.plans, h.scheduler, h.notices, h.bank⟩

/-- The traffic of a state that parts from the given one so. -/
theorem traffic : SameTraffic s v := ⟨h.store, h.notices, h.bank⟩

end Sys2Proof.Proofs.CellStore.LinksApart

namespace Sys2Proof.Proofs.TrunkReceive

open Sys2Proof.Machine Sys2Proof.Laws Sys2Proof.Claims Sys2Proof.Proofs.CellLink Sys2Proof.Proofs.CellStore
  Sys2Proof.Proofs.SlotScheduler

/-! ## The arrival -/

/-- The part with its trunk receiver moved on past a valid header (R10). -/
def passed (s : State) : State := { s with links := headerPassed .trunk s }

theorem linksApart_passed (s : State) : LinksApart s (passed s) := ⟨rfl, rfl, rfl, rfl, rfl, rfl⟩

section Arrival

variable {bytes : List Byte} {turn : Turn} {between : List StoreEvent} {s : State}

/-- A LOCKED header test of the trunk that finds a valid header on a cell that is not idle: the receiver moves on and trunk receive takes the
cell (R10, R12). -/
theorem exec_locked_trunk (h : Tests .trunk .locked bytes 36 s) (hv : headerValid bytes = true) (hidle : (decodeCell bytes).tag ≠ idleTag) :
    exec (.lockedHeaderTest .trunk bytes between turn) s =
      .next (trunkArrival (runStoreEvents between) (decodeCell bytes) (passed s)) := by
  rw [exec_locked_of_tests h, if_pos hv, handOn, if_neg hidle]
  rfl

theorem tag_ne_of_lt {tag : Tag} (h : tag.toNat ≤ 1021) : tag ≠ managementTag ∧ tag ≠ idleTag := by
  constructor <;> rintro rfl <;> exact absurd h (by decide)

/-- A cell on no assignable tag, and neither management nor idle, is counted (R107). -/
theorem exec_of_unassignable (h : Tests .trunk .locked bytes 36 s) (hv : headerValid bytes = true)
    (hlow : 1008 ≤ (decodeCell bytes).tag.toNat) (hhigh : (decodeCell bytes).tag.toNat ≤ 1021) :
    exec (.lockedHeaderTest .trunk bytes between turn) s = .next (countTrunk .bumpUnassignable (passed s)) := by
  obtain ⟨hmanagement, hidle⟩ := tag_ne_of_lt hhigh
  rw [exec_locked_trunk h hv hidle, trunkArrival, if_neg (show ¬_ < Config.assignableTags from Nat.not_lt.mpr hlow),
    if_neg hmanagement, if_neg hidle]

/-- A malformed cell on an assignable tag (R108). -/
theorem exec_of_malformed (h : Tests .trunk .locked bytes 36 s) (hv : headerValid bytes = true) (htag : (decodeCell bytes).tag.toNat < 1008)
    (hfields : (decodeCell bytes).fieldsOk = false) :
    exec (.lockedHeaderTest .trunk bytes between turn) s = .next (malformedDown (decodeCell bytes) (passed s)) := by
  rw [exec_locked_trunk h hv (tag_ne_of_lt (by omega)).2, trunkArrival, if_pos (show _ < Config.assignableTags from htag),
    if_neg (by simp [Cell.wellFormedTrunk, hfields])]

/-- A well-formed cell on an assignable tag is handled by its entry (R107). -/
theorem exec_of_wellFormed (h : Tests .trunk .locked bytes 36 s) (hv : headerValid bytes = true) (htag : (decodeCell bytes).tag.toNat < 1008)
    (hfields : (decodeCell bytes).fieldsOk = true) :
    exec (.lockedHeaderTest .trunk bytes between turn) s =
      .next (channelArrival (runStoreEvents between) (decodeCell bytes) (passed s)) := by
  have hw : (decodeCell bytes).wellFormedTrunk = true := by
    rw [Cell.wellFormedTrunk, hfields]
    exact decide_eq_true htag
  rw [exec_locked_trunk h hv (tag_ne_of_lt (by omega)).2, trunkArrival, if_pos (show _ < Config.assignableTags from htag),
    if_pos hw]

end Arrival

/-! ## What an arrival leaves -/

/-- A change of the downlink queues, the notice list and the counters alone. -/
structure TrafficMoves (s t : State) : Prop where
  channels : t.channels = s.channels
  links : t.links = s.links
  ports : t.ports = s.ports
  plans : t.plans = s.plans
  scheduler : t.scheduler = s.scheduler
  engine : t.engine = s.engine
  survey : t.survey = s.survey
  pins : t.pins = s.pins
  up : t.store.up = s.store.up

/-- Traffic keeps the channel map canonical. -/
theorem TrafficMoves.wf {s t : State} (h : TrafficMoves s t) (hwf : s.channels.wf = true) : t.channels.wf = true := by
  rw [h.channels]
  exact hwf

theorem TrafficMoves.trans {s t u : State} (h : TrafficMoves s t) (k : TrafficMoves t u) : TrafficMoves s u where
  channels := k.channels.trans h.channels
  links := k.links.trans h.links
  ports := k.ports.trans h.ports
  plans := k.plans.trans h.plans
  scheduler := k.scheduler.trans h.scheduler
  engine := k.engine.trans h.engine
  survey := k.survey.trans h.survey
  pins := k.pins.trans h.pins
  up := k.up.trans h.up

theorem trafficMoves_countTrunk (f : TrunkCounters → TrunkCounters) (s : State) : TrafficMoves s (countTrunk f s) := by
  constructor <;> rfl

theorem trafficMoves_countDown (n : Trib) (f : DownlinkCounters → DownlinkCounters) (s : State) : TrafficMoves s (countDown n f s) := by
  constructor <;> rfl

theorem trafficMoves_offerDown (n : Trib) (c : Cell) (s : State) : TrafficMoves s (offerDown n c s) where
  up := offerDown_up n c s
  channels := by simp
  links := by simp
  ports := by simp
  plans := by simp
  scheduler := by simp
  engine := by simp
  survey := by simp
  pins := by simp

theorem trafficMoves_writeConversion (n : Trib) (channel : Channel) (next : Index) (s : State) :
    TrafficMoves s (writeConversion n channel next s) := by
  unfold writeConversion
  split
  · split
    · exact (trafficMoves_offerDown n _ s).trans (trafficMoves_countDown n _ _)
    · exact trafficMoves_offerDown n _ s
  · exact trafficMoves_countDown n _ s

/-! ## How an entry moves -/

/-- Where nothing has moved yet but the receiver. -/
theorem entryMoves_passed (c : Cell) (s : State) : EntryMoves c (s.channels.get c.tag.toNat).current s (passed s) :=
  ⟨rfl, fun _ _ => rfl, rfl, rfl, rfl, rfl, rfl, rfl, rfl, rfl⟩

/-- Traffic moves no entry. -/
theorem entryMoves_traffic {c : Cell} {current : Current} {s v t : State} (h : EntryMoves c current s v) (ht : TrafficMoves v t) :
    EntryMoves c current s t := by
  obtain ⟨hentry, hothers, hlinks, hports, hplans, hscheduler, hengine, hsurvey, hpins, hup⟩ := h
  refine ⟨?_, fun tag htag => ?_, ht.links.trans hlinks, ht.ports.trans hports, ht.plans.trans hplans,
    ht.scheduler.trans hscheduler, ht.engine.trans hengine, ht.survey.trans hsurvey, ht.pins.trans hpins, ht.up.trans hup⟩
  · rw [ht.channels, hentry]
  · rw [ht.channels, hothers tag htag]

/-- A current part replaced is the move of its own entry, whatever the entry held before. -/
theorem entryMoves_setCurrent {c : Cell} {before : Current} {s v : State} (h : EntryMoves c before s v) (hwf : v.channels.wf = true)
    (current : Current) : EntryMoves c current s (setCurrent c.tag current v) := by
  obtain ⟨hentry, hothers, rest⟩ := h
  refine ⟨?_, fun tag htag => ?_, rest⟩
  · rw [setCurrent_channels, get_set_entry hwf, if_pos rfl, hentry]
  · rw [setCurrent_channels, get_set_entry hwf, if_neg htag, hothers tag htag]

theorem wf_setCurrent {tag : Tag} {s : State} (htag : tag.toNat < 1008) (h : s.channels.wf = true) (c : Current) :
    (setCurrent tag c s).channels.wf = true :=
  wf_set htag h

end Sys2Proof.Proofs.TrunkReceive
end

section
/-! PROOFS. Malformed cells from the trunk, and MIDDLE and LAST on an entry in every state (R107, R108, R114 to R118). -/

namespace Sys2Proof.Proofs.TrunkReceive

open Sys2Proof.Machine Sys2Proof.Laws Sys2Proof.Claims Sys2Proof.Proofs.CellLink Sys2Proof.Proofs.CellStore

/-! ## A message given up (R108, R115, R116) -/

section GivenUp

variable {c : Cell} {current : Current} {n : Trib} {channel : Channel} {next : Index} {s u v : State}

theorem entryMoves_giveUpDown (h : EntryMoves c current s v) (hwf : v.channels.wf = true) :
    EntryMoves c (.discarding n channel next true) s (giveUpDown c.tag n channel next v) :=
  entryMoves_traffic (entryMoves_setCurrent h hwf _) (trafficMoves_countDown n _ _)

theorem linksApart_giveUpDown (h : LinksApart u v) (tag : Tag) : LinksApart (discarded n u) (giveUpDown tag n channel next v) :=
  (h.setCurrent tag (.discarding n channel next true)).discarded n

/-! ## The conversion (R117) -/

theorem judgeDown_ne_of_refuses {full : Bool} (h : RefusesDown n full s) : judgeDown n s ≠ .admitted := by
  rw [judgeDown_of_refuses h]
  cases full <;> decide

/-- The conversion is offered as any cell, and counted besides when it is admitted. -/
theorem converted_writeConversion (n : Trib) (channel : Channel) (next : Index) (s : State) :
    Converted n channel next s (writeConversion n channel next s) := by
  have offered (hup : s.ports.state n = .up) : writeConversion n channel next s =
      if judgeDown n s = .admitted then countDown n .bumpConversions (offerDown n (conversion channel next) s)
      else offerDown n (conversion channel next) s := if_pos (isUp_iff.mpr hup)
  refine ⟨fun hdown => ?_, fun hup hroom => ?_, fun full hup hrefuses => ?_⟩
  · rw [writeConversion, if_neg (mt isUp_iff.mp hdown)]
    exact ⟨rfl, rfl, rfl⟩
  · rw [offered hup, if_pos (judgeDown_of_room hroom), offerDown_of_room hroom]
    refine ⟨rfl, rfl, ?_⟩
    simp [joinedDown, DownlinkCounters.bumpConversions]
  · rw [offered hup, if_neg (judgeDown_ne_of_refuses hrefuses), offerDown_of_refuses hrefuses]
    exact ⟨rfl, rfl, rfl⟩

theorem closeGivenUp_of_delivered {tag : Tag} (h : (s.channels.get tag.toNat).current = .discarding n channel next true) :
    closeGivenUp tag s = setCurrent tag .idle (writeConversion n channel next s) := by
  simp only [closeGivenUp, h]

theorem closeGivenUp_of_undelivered {tag : Tag}
    (h : (s.channels.get tag.toNat).current = .discardingInactive
      ∨ ∃ n channel next, (s.channels.get tag.toNat).current = .discarding n channel next false) :
    closeGivenUp tag s = setCurrent tag .idle s := by
  obtain h | ⟨n, channel, next, h⟩ := h <;> simp only [closeGivenUp, h]

/-- A LAST on a message given up with the delivered flag set ends it: the entry is IDLE, and the conversion is written (R117). -/
theorem closeGivenUp_delivers (h : EntryMoves c (.discarding n channel next true) s v) (hwf : v.channels.wf = true)
    (apart : LinksApart u v) : EntryMoves c .idle s (closeGivenUp c.tag v) ∧ Converted n channel next u (closeGivenUp c.tag v) := by
  have hcurrent : (v.channels.get c.tag.toNat).current = .discarding n channel next true := by rw [h.1]
  have written := trafficMoves_writeConversion n channel next v
  rw [closeGivenUp_of_delivered hcurrent]
  exact ⟨entryMoves_setCurrent (entryMoves_traffic h written) (written.wf hwf) _,
    apart.converted.mp (converted_writeConversion n channel next v)⟩

/-- An OPEN message given up at a MIDDLE or LAST, which a LAST ends there at once (R115, R116). -/
def discardAt (n : Trib) (channel : Channel) (next : Index) (c : Cell) (s : State) : State :=
  if c.position = .last then closeGivenUp c.tag (giveUpDown c.tag n channel next s) else giveUpDown c.tag n channel next s

theorem discardAt_middle (h : EntryMoves c current s v) (hwf : v.channels.wf = true) (apart : LinksApart u v)
    (hp : c.position = .middle) :
    EntryMoves c (.discarding n channel next true) s (discardAt n channel next c v)
      ∧ SameTraffic (discarded n u) (discardAt n channel next c v) := by
  rw [discardAt, if_neg (by simp [hp])]
  exact ⟨entryMoves_giveUpDown h hwf, (linksApart_giveUpDown apart c.tag).traffic⟩

theorem discardAt_last (h : EntryMoves c current s v) (hwf : v.channels.wf = true) (apart : LinksApart u v)
    (htag : c.tag.toNat < 1008) (hp : c.position = .last) :
    EntryMoves c .idle s (discardAt n channel next c v) ∧ Converted n channel next (discarded n u) (discardAt n channel next c v) := by
  rw [discardAt, if_pos hp]
  exact closeGivenUp_delivers (entryMoves_giveUpDown h hwf) (wf_setCurrent htag hwf _) (linksApart_giveUpDown apart c.tag)

end GivenUp

/-! ## A message that goes on (R115, R116) -/

section Continuation

variable {between : State → State} {c : Cell} {n : Trib} {channel : Channel} {next : Index} {s : State}

theorem continueDown_of_gap (h : c.index ≠ next) :
    continueDown between c.tag n channel next c s = discardAt n channel next c (continuationError s) := if_pos h

theorem continueDown_of_room (h : c.index = next) (hroom : RoomDown n s) :
    continueDown between c.tag n channel next c s =
      setCurrent c.tag (if c.position = .last then .idle else .opened n channel (c.index + 1))
        (joinedDown n { c with tag := channel.setWidth 10 } s) := by
  rw [continueDown, if_neg (not_not.mpr h), ← offerDown_of_room hroom]
  exact if_pos (judgeDown_of_room hroom)

/-- With nothing between the two offers of a refused LAST (R116). -/
theorem continueDown_of_refuses {full : Bool} (h : c.index = next) (hrefuses : RefusesDown n full s) (hb : c.position = .last → between = id) :
    continueDown between c.tag n channel next c s = discardAt n channel next c (refusedDown n full s) := by
  rw [continueDown, if_neg (not_not.mpr h), offerDown_of_refuses hrefuses, discardAt]
  refine (if_neg (judgeDown_ne_of_refuses hrefuses)).trans ?_
  dsimp only
  split
  · next hp =>
    rw [hb hp]
    rfl
  · rfl

/-! ## MIDDLE and LAST by the state of the entry -/

theorem channelArrival_of_idle (hp : c.position = .middle ∨ c.position = .last) (h : (s.channels.get c.tag.toNat).current = .idle) :
    channelArrival between c s = continuationError s := by
  obtain hp | hp := hp <;> simp only [channelArrival, h, hp] <;> rfl

theorem channelArrival_of_opened (hp : c.position = .middle ∨ c.position = .last)
    (h : (s.channels.get c.tag.toNat).current = .opened n channel next) :
    channelArrival between c s = continueDown between c.tag n channel next c s := by
  obtain hp | hp := hp <;> simp only [channelArrival, h, hp]

/-- A MIDDLE of a given-up message is dropped (R118). -/
theorem channelArrival_dropped (hp : c.position = .middle)
    (h : (s.channels.get c.tag.toNat).current = .discardingInactive
      ∨ ∃ n channel next d, (s.channels.get c.tag.toNat).current = .discarding n channel next d) :
    channelArrival between c s = s := by
  obtain h | ⟨n, channel, next, d, h⟩ := h <;> simp only [channelArrival, h, hp]

/-- A LAST of a given-up message ends it (R117). -/
theorem channelArrival_ends (hp : c.position = .last)
    (h : (s.channels.get c.tag.toNat).current = .discardingInactive
      ∨ ∃ n channel next d, (s.channels.get c.tag.toNat).current = .discarding n channel next d) :
    channelArrival between c s = closeGivenUp c.tag s := by
  obtain h | ⟨n, channel, next, d, h⟩ := h <;> simp only [channelArrival, h, hp]

/-! ## Malformed cells (R108) -/

theorem malformedDown_of_opened (h : (s.channels.get c.tag.toNat).current = .opened n channel next) :
    malformedDown c s = giveUpDown c.tag n channel next (countTrunk .bumpMalformed s) := by
  simp only [malformedDown, h]

theorem malformedDown_of_closed (h : ∀ n channel next, (s.channels.get c.tag.toNat).current ≠ .opened n channel next) :
    malformedDown c s = countTrunk .bumpMalformed s := by
  unfold malformedDown
  dsimp only
  split
  · next ho => exact absurd ho (h _ _ _)
  all_goals rfl

end Continuation

/-- Settles O27: each case is one of the arrival's own branches, read past the move of the receiver. -/
theorem otherTrunkDataCellsAreJudged : Obligations.OtherTrunkDataCellsAreJudged := by
  unfold Obligations.OtherTrunkDataCellsAreJudged
  rintro bytes turn between s c e htests hvalid rfl hwf rfl
  have apart := linksApart_passed s
  have unmoved := entryMoves_passed (decodeCell bytes) s
  refine ⟨fun hlow hhigh => exec_of_unassignable htests hvalid hlow hhigh,
    fun htag hfields => ⟨_, exec_of_malformed htests hvalid htag hfields, ?_⟩, fun htag hfields hp => ?_⟩
  · have counted := entryMoves_traffic unmoved (trafficMoves_countTrunk .bumpMalformed _)
    cases hcurrent : (s.channels.get (decodeCell bytes).tag.toNat).current with
    | opened n channel next =>
      rw [malformedDown_of_opened (s := passed s) hcurrent]
      exact ⟨entryMoves_giveUpDown counted hwf, rfl, rfl, rfl⟩
    | idle | discarding | discardingInactive =>
      rw [malformedDown_of_closed (s := passed s) fun n channel next ho => by cases hcurrent.symm.trans ho]
      rw [hcurrent] at counted
      exact ⟨counted, rfl, rfl, rfl⟩
  rw [exec_of_wellFormed htests hvalid htag hfields]
  refine ⟨fun hidle => ?_, fun hmiddle hd => ?_, fun hlast hd => ?_, fun n channel next hlast delivered hd => ?_,
    fun n channel next ho => ?_⟩
  · rw [channelArrival_of_idle (s := passed s) hp hidle]
    rfl
  · rw [channelArrival_dropped (s := passed s) hmiddle hd]
    rfl
  · rw [channelArrival_ends (s := passed s) hlast (.inl hd), closeGivenUp_of_undelivered (s := passed s) (.inl hd)]
    exact ⟨_, rfl, entryMoves_setCurrent unmoved hwf _, (apart.setCurrent _ _).traffic⟩
  · rw [channelArrival_ends (s := passed s) hlast (.inr ⟨n, channel, next, delivered, hd⟩)]
    cases delivered with
    | false =>
      rw [closeGivenUp_of_undelivered (s := passed s) (.inr ⟨n, channel, next, hd⟩)]
      exact ⟨_, rfl, entryMoves_setCurrent unmoved hwf _, fun _ => (apart.setCurrent _ _).traffic, nofun⟩
    | true =>
      rw [hd] at unmoved
      obtain ⟨hmoves, hconverted⟩ := closeGivenUp_delivers unmoved hwf apart
      exact ⟨_, rfl, hmoves, nofun, fun _ => hconverted⟩
  · rw [channelArrival_of_opened (s := passed s) hp ho]
    refine ⟨fun hgap => ?_, fun hindex hroom => ?_, fun full hindex hrefuses hbetween => ?_⟩
    · rw [continueDown_of_gap hgap]
      have counted := entryMoves_traffic unmoved (trafficMoves_countTrunk .bumpContinuation _)
      exact ⟨_, rfl, discardAt_middle counted hwf apart.continuationError, discardAt_last counted hwf apart.continuationError htag⟩
    · have hroom' := (apart.roomDown n).mpr hroom
      rw [continueDown_of_room hindex hroom', ← offerDown_of_room hroom']
      have offered := trafficMoves_offerDown n { decodeCell bytes with tag := channel.setWidth 10 } (passed s)
      refine ⟨_, rfl, entryMoves_setCurrent (entryMoves_traffic unmoved offered) (offered.wf hwf) _, ?_⟩
      rw [offerDown_of_room hroom']
      exact ((apart.joinedDown n _).setCurrent _ _).traffic
    · have hrefuses' := (apart.refusesDown n full).mpr hrefuses
      rw [continueDown_of_refuses hindex hrefuses' fun hlast => by rw [hbetween hlast]; rfl]
      have offered := trafficMoves_offerDown n (decodeCell bytes) (passed s)
      rw [offerDown_of_refuses hrefuses'] at offered
      have refused := entryMoves_traffic unmoved offered
      have hwf' : (refusedDown n full (passed s)).channels.wf = true := offered.wf hwf
      exact ⟨_, rfl, discardAt_middle refused hwf' (apart.refusedDown n full),
        discardAt_last refused hwf' (apart.refusedDown n full) htag⟩

end Sys2Proof.Proofs.TrunkReceive
end

section
/-! PROOFS. FIRST and SOLE from the trunk: what each ends of its entry, and the three judgements it then passes (R109, R112, R113). -/

namespace Sys2Proof.Proofs.TrunkReceive

open Sys2Proof.Machine Sys2Proof.Laws Sys2Proof.Claims Sys2Proof.Proofs.CellLink Sys2Proof.Proofs.CellStore

/-! ## What a FIRST or SOLE ends (R113) -/

theorem linksApart_givenUpBefore {s v : State} (h : LinksApart s v) (current : Current) :
    LinksApart (givenUpBefore current s) (givenUpBefore current v) := by
  cases current with
  | opened n channel next => exact h.continuationError.discarded n
  | idle | discarding | discardingInactive => exact h

theorem trafficMoves_givenUpBefore (current : Current) (s : State) : TrafficMoves s (givenUpBefore current s) := by
  cases current <;> constructor <;> rfl

/-- Only counters move, so the store judges an offer as it did before. -/
theorem roomDown_givenUpBefore (n : Trib) (current : Current) (s : State) : RoomDown n (givenUpBefore current s) ↔ RoomDown n s := by
  cases current <;> rfl

theorem refusesDown_givenUpBefore (n : Trib) (full : Bool) (current : Current) (s : State) :
    RefusesDown n full (givenUpBefore current s) ↔ RefusesDown n full s := by
  cases current <;> rfl

theorem restartDown_eq (tag : Tag) (c : Cell) (s : State) :
    restartDown tag c s = startDown tag c (setCurrent tag .idle (givenUpBefore (s.channels.get tag.toNat).current s)) := by
  unfold restartDown
  cases hcurrent : (s.channels.get tag.toNat).current <;> rfl

section Starts

variable {between : State → State} {c : Cell} {s : State} (hp : c.position = .first ∨ c.position = .sole)
include hp

theorem channelArrival_begins (h : (s.channels.get c.tag.toNat).current = .idle) : channelArrival between c s = startDown c.tag c s := by
  obtain hp | hp := hp <;> simp only [channelArrival, h, hp]

theorem channelArrival_restarts (h : (s.channels.get c.tag.toNat).current ≠ .idle) :
    channelArrival between c s = restartDown c.tag c s := by
  cases hcurrent : (s.channels.get c.tag.toNat).current with
  | idle => exact absurd hcurrent h
  | opened | discarding | discardingInactive => obtain hp | hp := hp <;> simp only [channelArrival, hcurrent, hp]

/-- A FIRST or SOLE is judged over an IDLE entry, with what the entry had in progress counted as given up. -/
theorem channelArrival_starts (htag : c.tag.toNat < 1008) (hwf : s.channels.wf = true) :
    ∃ v, channelArrival between c (passed s) = startDown c.tag c v ∧ EntryMoves c .idle s v
      ∧ LinksApart (givenUpBefore (s.channels.get c.tag.toNat).current s) v ∧ v.channels.wf = true := by
  have unmoved := entryMoves_passed c s
  have apart := linksApart_givenUpBefore (linksApart_passed s) (s.channels.get c.tag.toNat).current
  by_cases hidle : (s.channels.get c.tag.toNat).current = .idle
  · rw [hidle] at apart unmoved ⊢
    exact ⟨passed s, channelArrival_begins (s := passed s) hp hidle, unmoved, apart, hwf⟩
  · have given := trafficMoves_givenUpBefore (s.channels.get c.tag.toNat).current (passed s)
    have hgiven : (givenUpBefore (s.channels.get c.tag.toNat).current (passed s)).channels.wf = true := given.wf hwf
    exact ⟨_, (channelArrival_restarts (s := passed s) hp hidle).trans (restartDown_eq c.tag c (passed s)),
      entryMoves_setCurrent (entryMoves_traffic unmoved given) hgiven _, apart.setCurrent _ _, wf_setCurrent htag hgiven _⟩

end Starts

/-! ## The three judgements (R112) -/

/-- The current part a FIRST leaves its entry; a SOLE leaves it as it is. -/
def startedAs (c : Cell) (current : Current) (s : State) : State :=
  if c.position = .first then setCurrent c.tag current s else s

/-- A FIRST not carried is counted discarded, its entry DISCARDING with the destination latched and nothing delivered. -/
def notCarried (c : Cell) (e : ChannelEntry) (s : State) : State :=
  if c.position = .first then discarded e.trib (setCurrent c.tag (.discarding e.trib e.channel 1 false) s) else s

section Judgements

variable {c : Cell} {e : ChannelEntry} {s v : State} (he : v.channels.get c.tag.toNat = e)
include he

theorem startDown_of_inactive (h : e.mask.includes v.plans.run = false) :
    startDown c.tag c v = startedAs c .discardingInactive (countTrunk .bumpInactive v) := by
  simp only [startDown, he, h, Bool.not_false, if_true, beq_iff_eq]
  rfl

variable (hactive : e.mask.includes v.plans.run = true)
include hactive

theorem startDown_of_notUp (h : v.ports.state e.trib ≠ .up) : startDown c.tag c v = notCarried c e (droppedNotUp e.trib v) := by
  have hup : v.ports.isUp e.trib = false := by simpa using mt isUp_iff.mp h
  simp only [startDown, he, hactive, hup, Bool.not_true, Bool.not_false, Bool.false_eq_true, if_true, if_false, beq_iff_eq]
  rfl

variable (hup : v.ports.state e.trib = .up)
include hup

theorem startDown_of_room (h : RoomDown e.trib v) :
    startDown c.tag c v =
      startedAs c (.opened e.trib e.channel 1) (joinedDown e.trib { c with tag := e.channel.setWidth 10 } v) := by
  simp only [startDown, he, hactive, isUp_iff.mpr hup, judgeDown_of_room h, offerDown_of_room h, Bool.not_true, Bool.false_eq_true,
    if_true, if_false, beq_iff_eq]
  rfl

theorem startDown_of_refuses {full : Bool} (h : RefusesDown e.trib full v) :
    startDown c.tag c v = notCarried c e (refusedDown e.trib full v) := by
  simp only [startDown, he, hactive, isUp_iff.mpr hup, judgeDown_ne_of_refuses h, offerDown_of_refuses h, Bool.not_true,
    Bool.false_eq_true, if_false, beq_iff_eq]
  rfl

end Judgements

/-! ## The entry and the traffic after each -/

section Outcomes

variable {c : Cell} {e : ChannelEntry} {s u v : State}

theorem entryMoves_startedAs (h : EntryMoves c .idle s v) (hwf : v.channels.wf = true) (current : Current) :
    EntryMoves c (if c.position = .first then current else .idle) s (startedAs c current v) := by
  unfold startedAs
  split
  · exact entryMoves_setCurrent h hwf current
  · exact h

theorem entryMoves_notCarried (h : EntryMoves c .idle s v) (hwf : v.channels.wf = true) (e : ChannelEntry) :
    EntryMoves c (if c.position = .first then .discarding e.trib e.channel 1 false else .idle) s (notCarried c e v) := by
  unfold notCarried
  split
  · exact entryMoves_traffic (entryMoves_setCurrent h hwf _) (trafficMoves_countDown e.trib (.addDiscarded 1) _)
  · exact h

theorem sameTraffic_startedAs (h : LinksApart u v) (c : Cell) (current : Current) : SameTraffic u (startedAs c current v) := by
  unfold startedAs
  split <;> exact h.traffic

theorem sameTraffic_notCarried (h : LinksApart u v) (e : ChannelEntry) :
    (c.position = .first → SameTraffic (discarded e.trib u) (notCarried c e v))
      ∧ (c.position = .sole → SameTraffic u (notCarried c e v)) := by
  constructor <;> intro hp
  · rw [notCarried, if_pos hp]
    exact ((h.setCurrent _ _).discarded _).traffic
  · rw [notCarried, if_neg (by simp [hp])]
    exact h.traffic

end Outcomes

theorem room_or_refuses (n : Trib) (s : State) : RoomDown n s ∨ ∃ full, RefusesDown n full s := by
  cases hjudge : judgeDown n s with
  | admitted => exact .inl (judgeOffer_admitted.mp hjudge)
  | queueFull => exact .inr ⟨true, judgeOffer_queueFull.mp hjudge⟩
  | noBuffer => exact .inr ⟨false, judgeOffer_noBuffer.mp hjudge⟩

theorem trafficMoves_joinedDown (n : Trib) (c : Cell) (s : State) : TrafficMoves s (joinedDown n c s) := by
  constructor <;> rfl

theorem trafficMoves_refusedDown (n : Trib) {full : Bool} {s : State} (h : RefusesDown n full s) : TrafficMoves s (refusedDown n full s) :=
  offerDown_of_refuses h idleCell ▸ trafficMoves_offerDown n idleCell s

/-- Whichever judgement ends it, a FIRST or SOLE moves its own entry alone, and a SOLE leaves it IDLE (R112). -/
theorem entryMoves_startDown {c : Cell} {s v : State} (h : EntryMoves c .idle s v) (hwf : v.channels.wf = true) :
    ∃ current, EntryMoves c (if c.position = .first then current else .idle) s (startDown c.tag c v) := by
  cases hactive : (v.channels.get c.tag.toNat).mask.includes v.plans.run with
  | false =>
    rw [startDown_of_inactive rfl hactive]
    exact ⟨_, entryMoves_startedAs (entryMoves_traffic h (trafficMoves_countTrunk _ _)) hwf _⟩
  | true =>
    by_cases hup : v.ports.state (v.channels.get c.tag.toNat).trib = .up
    · obtain hroom | ⟨full, hrefuses⟩ := room_or_refuses (v.channels.get c.tag.toNat).trib v
      · rw [startDown_of_room rfl hactive hup hroom]
        exact ⟨_, entryMoves_startedAs (entryMoves_traffic h (trafficMoves_joinedDown _ _ _)) hwf _⟩
      · rw [startDown_of_refuses rfl hactive hup hrefuses]
        have refused := trafficMoves_refusedDown _ hrefuses
        exact ⟨_, entryMoves_notCarried (entryMoves_traffic h refused) (refused.wf hwf) _⟩
    · rw [startDown_of_notUp rfl hactive hup]
      exact ⟨_, entryMoves_notCarried (entryMoves_traffic h (trafficMoves_countDown _ .bumpPortNotUp _)) hwf _⟩

/-- Settles O26: the cell is judged over its IDLE entry, each judgement an outcome of its own. -/
theorem firstOrSoleOfDownlinkIsJudged : Obligations.FirstOrSoleOfDownlinkIsJudged := by
  unfold Obligations.FirstOrSoleOfDownlinkIsJudged
  rintro bytes turn between s u c e htests hvalid rfl htag hfields hp hwf rfl rfl
  obtain ⟨v, hstarts, moves, apart, hwfv⟩ := channelArrival_starts (between := runStoreEvents between) hp htag hwf
  rw [exec_of_wellFormed htests hvalid htag hfields, hstarts]
  obtain ⟨current, hmoves⟩ := entryMoves_startDown moves hwfv
  obtain ⟨hentry, hothers, hlinks, hports, hplans, hscheduler, hengine, hsurvey, hpins, -⟩ := hmoves
  obtain ⟨he, -, -, hvports, hvplans, -⟩ := id moves
  refine ⟨_, rfl, hlinks, hports, hplans, hscheduler, hengine, hsurvey, hpins, hothers, fun hsole => ?_, fun hmask => ?_,
    fun hmask hstate => ?_, fun hmask hstate hroom => ?_, fun full hmask hstate hrefuses => ?_⟩
  · rw [hentry, if_neg (by simp [hsole])]
  all_goals rw [← hvplans] at hmask
  · rw [startDown_of_inactive he hmask]
    obtain ⟨hfirst, -⟩ := entryMoves_startedAs (entryMoves_traffic moves (trafficMoves_countTrunk .bumpInactive v)) hwfv .discardingInactive
    exact ⟨fun h => by rw [hfirst, if_pos h], sameTraffic_startedAs (apart.counted (by rw [apart.bank]; rfl)) _ _⟩
  all_goals rw [← hvports] at hstate
  · rw [startDown_of_notUp he hmask hstate]
    obtain ⟨hfirst, -⟩ := entryMoves_notCarried (entryMoves_traffic moves (trafficMoves_countDown _ .bumpPortNotUp v)) hwfv _
    obtain ⟨first, sole⟩ := sameTraffic_notCarried (apart.droppedNotUp _) _
    exact ⟨fun h => ⟨hfirst.trans (by rw [if_pos h]), first h⟩, sole⟩
  · have hroomv := (apart.roomDown _).mpr ((roomDown_givenUpBefore _ _ s).mpr hroom)
    rw [startDown_of_room he hmask hstate hroomv]
    obtain ⟨hfirst, -⟩ := entryMoves_startedAs (entryMoves_traffic moves (trafficMoves_joinedDown _ _ v)) hwfv _
    exact ⟨fun h => hfirst.trans (by rw [if_pos h]), sameTraffic_startedAs (apart.joinedDown _ _) _ _⟩
  · have hrefusesv := (apart.refusesDown _ _).mpr ((refusesDown_givenUpBefore _ _ _ s).mpr hrefuses)
    rw [startDown_of_refuses he hmask hstate hrefusesv]
    have refused := trafficMoves_refusedDown _ hrefusesv
    obtain ⟨hfirst, -⟩ := entryMoves_notCarried (entryMoves_traffic moves refused) (refused.wf hwfv) _
    obtain ⟨first, sole⟩ := sameTraffic_notCarried (apart.refusedDown _ full) _
    exact ⟨fun h => ⟨hfirst.trans (by rw [if_pos h]), first h⟩, sole⟩

end Sys2Proof.Proofs.TrunkReceive
end

section
/-! PROOFS. What an execution makes of the engine: it begins, and the command's own work answers it, or leaves it in progress (SWITCH PLAN), or
empties the engine before it answers (RESTART) (R133, R134, R136, R144). -/

namespace Sys2Proof.Proofs.ManagementEngine

open Sys2Proof.Machine Sys2Proof.Laws Sys2Proof.Claims

/-! ## The engine as an execution begins and as it is answered -/

/-- The engine as an execution begins, with the queue behind its command (R133). -/
def begun (rest : List TakenCommand) (e : Engine) : Engine :=
  { ({ e with commands := rest } : Engine).setStanding .executing with reserved := true }

/-- The engine as a command is answered (R134). -/
def answered (c : TakenCommand) (result : Result) (data : List Byte) (e : Engine) : Engine :=
  { e.setStanding .completed with
    inProgress := none
    placed := e.placed ++ [{ kind := c.kind, seq := c.seq, result := result, repeated := false, data := data }]
    reserved := false
    stored := some { kind := c.kind, seq := c.seq, result := result, repeated := false, data := data } }

theorem engine_beginCommand (rest : List TakenCommand) (s : State) : (beginCommand rest s).engine = begun rest s.engine := rfl

theorem engine_complete (c : TakenCommand) (r : Result) (d : List Byte) (s : State) :
    (complete c r d s).engine = answered c r d s.engine := rfl

@[simp] theorem begun_fields (rest : List TakenCommand) (e : Engine) :
    (begun rest e).commands = rest ∧ (begun rest e).inProgress = e.inProgress ∧ (begun rest e).placed = e.placed
      ∧ (begun rest e).reserved = true ∧ (begun rest e).stored = e.stored
      ∧ (begun rest e).lastTaken = standingAt .executing rest e := by
  simp [begun, standingAt]

@[simp] theorem answered_fields (c : TakenCommand) (r : Result) (d : List Byte) (e : Engine) :
    (answered c r d e).commands = e.commands ∧ (answered c r d e).inProgress = none
      ∧ (answered c r d e).placed = e.placed ++ [{ kind := c.kind, seq := c.seq, result := r, repeated := false, data := d }]
      ∧ (answered c r d e).reserved = false
      ∧ (answered c r d e).stored = some { kind := c.kind, seq := c.seq, result := r, repeated := false, data := d }
      ∧ (answered c r d e).lastTaken = standingAt .completed e.commands e := by
  simp [answered, standingAt]

/-- A command that begins and is answered at once moves the last taken number's standing as one change to COMPLETED does (R133, R134). -/
theorem standing_answered_begun (c : TakenCommand) (rest : List TakenCommand) (r : Result) (d : List Byte) (e : Engine) :
    (answered c r d (begun rest e)).lastTaken = standingAt .completed rest e := by
  by_cases h : rest = [] <;> simp [standingAt, h, Function.comp_def]

/-! ## What the work of a command can do to the engine -/

/-- Every way the work of a command can leave the engine it was begun on: answered; in progress, by SWITCH PLAN alone (R136); emptied and
answered, by RESTART alone (R144). -/
inductive WorkOutcome (k : CommandKind) (c : TakenCommand) (e : Engine) : Engine → Prop
  | answered (r : Result) (d : List Byte) : WorkOutcome k c e (answered c r d e)
  | pended (switches : k = .switchPlan) : WorkOutcome k c e { e with inProgress := some c }
  | restarted (d : List Byte) (restarts : k = .restart) : WorkOutcome k c e (ManagementEngine.answered c .ok d (e.restarted c.seq))

/-- Work that leaves the engine in one of the ways of `WorkOutcome`. -/
def Works (k : CommandKind) (work : TakenCommand → State → State) : Prop := ∀ c u, WorkOutcome k c u.engine (work c u).engine

/-- A completion over work that leaves the engine alone answers the command. -/
theorem outcome_complete {k : CommandKind} {c : TakenCommand} {r : Result} {d : List Byte} {e : Engine} {v : State} (hv : v.engine = e) :
    WorkOutcome k c e (complete c r d v).engine := by
  subst hv
  exact .answered r d

theorem outcome_answerRange {k : CommandKind} (c : TakenCommand) (u : State) : WorkOutcome k c u.engine (answerRange c u).engine :=
  outcome_complete rfl

theorem outcome_writeEditPlan {k : CommandKind} (c : TakenCommand) (change : Plan → Plan) (u : State) :
    WorkOutcome k c u.engine (writeEditPlan c change u).engine := by
  unfold writeEditPlan
  split <;> exact outcome_complete rfl

/-! ### The engine's own commands -/

theorem works_echo : Works .echo workEcho := fun _ _ => outcome_complete rfl

theorem works_identify : Works .identify workIdentify := fun _ _ => outcome_complete rfl

theorem works_readStatus : Works .readStatus workReadStatus := fun _ _ => outcome_complete rfl

theorem works_restart : Works .restart workRestart := fun _ _ => .restarted _ rfl

/-! ### The plan commands -/

theorem works_selectEditPlan : Works .selectEditPlan workSelectEditPlan := fun c u => by
  unfold workSelectEditPlan
  split
  · exact outcome_complete rfl
  · exact outcome_answerRange c u

theorem works_writeSlots : Works .writeSlots workWriteSlots := fun c u => by
  unfold workWriteSlots
  dsimp only
  split
  · split
    · exact outcome_writeEditPlan c _ u
    · exact outcome_answerRange c u
  · exact outcome_answerRange c u

theorem works_setCycleLength : Works .setCycleLength workSetCycleLength := fun c u => by
  unfold workSetCycleLength
  dsimp only
  split
  · exact outcome_writeEditPlan c _ u
  · exact outcome_answerRange c u

theorem works_writeTributaryEntry : Works .writeTributaryEntry workWriteTributaryEntry := fun c u => by
  unfold workWriteTributaryEntry
  split
  · exact outcome_writeEditPlan c _ u
  · exact outcome_answerRange c u

theorem works_setPlanOptions : Works .setPlanOptions workSetPlanOptions := fun c u => by
  unfold workSetPlanOptions
  split
  · exact outcome_writeEditPlan c _ u
  · exact outcome_answerRange c u

theorem works_copyPlan : Works .copyPlan workCopyPlan := fun c u => outcome_writeEditPlan c _ u

theorem works_readSlots : Works .readSlots workReadSlots := fun c u => by
  unfold workReadSlots
  dsimp only
  split
  · split <;> exact outcome_complete rfl
  · exact outcome_answerRange c u

theorem works_readTributaryEntry : Works .readTributaryEntry workReadTributaryEntry := fun c u => by
  unfold workReadTributaryEntry
  split <;> exact outcome_complete rfl

theorem works_readPlanOptions : Works .readPlanOptions workReadPlanOptions := fun c u => by
  unfold workReadPlanOptions
  split <;> exact outcome_complete rfl

/-- A SWITCH PLAN that passes its checks is the one command whose work leaves it in progress (R71, R136). -/
theorem works_switchPlan : Works .switchPlan workSwitchPlan := fun c u => by
  unfold workSwitchPlan
  split
  · split
    · exact outcome_complete rfl
    · split
      · exact outcome_complete rfl
      · split
        · exact outcome_complete rfl
        · exact .pended rfl
  · exact outcome_answerRange c u

theorem works_confirmPlan : Works .confirmPlan workConfirmPlan := fun c u => by
  unfold workConfirmPlan
  split <;> exact outcome_complete rfl

/-! ### The port and channel commands -/

theorem works_writePort (turn : Turn) : Works .writePort (workWritePort turn) := fun c u => by
  unfold workWritePort
  dsimp only
  split
  · split <;> exact outcome_complete (by simp)
  · exact outcome_answerRange c u

theorem works_readPort : Works .readPort workReadPort := fun c u => by
  unfold workReadPort
  split <;> exact outcome_complete rfl

theorem works_flushPort : Works .flushPort workFlushPort := fun c u => by
  unfold workFlushPort
  dsimp only
  split
  · split
    · exact outcome_complete (by simp)
    · split
      · exact outcome_complete (by simp)
      · split
        · exact outcome_complete (by simp)
        · exact outcome_answerRange c u
  · exact outcome_answerRange c u

theorem works_writeChannels : Works .writeChannels workWriteChannels := fun c u => by
  unfold workWriteChannels
  dsimp only
  split
  · split <;> exact outcome_complete rfl
  · exact outcome_answerRange c u

theorem works_readChannel : Works .readChannel workReadChannel := fun c u => by
  unfold workReadChannel
  dsimp only
  split <;> exact outcome_complete rfl

/-! ### The commands of the counters, the survey and the notice list -/

theorem works_readCounters : Works .readCounters workReadCounters := fun c u => by
  unfold workReadCounters
  split <;> exact outcome_complete rfl

theorem works_clearCounters : Works .clearCounters workClearCounters := fun c u => by
  unfold workClearCounters
  split <;> exact outcome_complete rfl

theorem works_startSurvey : Works .startSurvey workStartSurvey := fun c u => by
  unfold workStartSurvey
  dsimp only
  split <;> exact outcome_complete rfl

theorem works_stopSurvey : Works .stopSurvey workStopSurvey := fun c u => by
  unfold workStopSurvey
  dsimp only
  split
  · split <;> exact outcome_complete rfl
  · split <;> exact outcome_complete rfl
  · exact outcome_complete rfl
  · exact outcome_complete rfl

theorem works_readSurvey : Works .readSurvey workReadSurvey := fun c u => by
  unfold workReadSurvey
  split <;> exact outcome_complete rfl

theorem works_ackNotice : Works .ackNotice workAckNotice := fun c u => by
  unfold workAckNotice
  dsimp only
  split
  · exact outcome_answerRange c u
  · split
    · split
      · exact outcome_complete rfl
      · split <;> exact outcome_complete rfl
    · exact outcome_complete rfl

theorem works_setNoticeOptions : Works .setNoticeOptions workSetNoticeOptions := fun c u => by
  unfold workSetNoticeOptions
  dsimp only
  split <;> exact outcome_complete rfl

/-! ## The step of a command -/

/-- The step of a command executes, while the part runs, the command's kind with work of that kind (R133). -/
theorem exec_of_kindOf {i : Instr} {k : CommandKind} (h : kindOf i = some k) :
    ∃ work, Works k work ∧ ∀ s, exec i s = .next (whileRunning s (runCommand k work)) := by
  cases i <;> cases h
  case echo => exact ⟨_, works_echo, fun _ => rfl⟩
  case identify => exact ⟨_, works_identify, fun _ => rfl⟩
  case readStatus => exact ⟨_, works_readStatus, fun _ => rfl⟩
  case restart => exact ⟨_, works_restart, fun _ => rfl⟩
  case selectEditPlan => exact ⟨_, works_selectEditPlan, fun _ => rfl⟩
  case writeSlots => exact ⟨_, works_writeSlots, fun _ => rfl⟩
  case setCycleLength => exact ⟨_, works_setCycleLength, fun _ => rfl⟩
  case writeTributaryEntry => exact ⟨_, works_writeTributaryEntry, fun _ => rfl⟩
  case setPlanOptions => exact ⟨_, works_setPlanOptions, fun _ => rfl⟩
  case copyPlan => exact ⟨_, works_copyPlan, fun _ => rfl⟩
  case readSlots => exact ⟨_, works_readSlots, fun _ => rfl⟩
  case readTributaryEntry => exact ⟨_, works_readTributaryEntry, fun _ => rfl⟩
  case readPlanOptions => exact ⟨_, works_readPlanOptions, fun _ => rfl⟩
  case switchPlan => exact ⟨_, works_switchPlan, fun _ => rfl⟩
  case confirmPlan => exact ⟨_, works_confirmPlan, fun _ => rfl⟩
  case writePort turn => exact ⟨_, works_writePort turn, fun _ => rfl⟩
  case readPort => exact ⟨_, works_readPort, fun _ => rfl⟩
  case flushPort => exact ⟨_, works_flushPort, fun _ => rfl⟩
  case writeChannels => exact ⟨_, works_writeChannels, fun _ => rfl⟩
  case readChannel => exact ⟨_, works_readChannel, fun _ => rfl⟩
  case readCounters => exact ⟨_, works_readCounters, fun _ => rfl⟩
  case clearCounters => exact ⟨_, works_clearCounters, fun _ => rfl⟩
  case startSurvey => exact ⟨_, works_startSurvey, fun _ => rfl⟩
  case stopSurvey => exact ⟨_, works_stopSurvey, fun _ => rfl⟩
  case readSurvey => exact ⟨_, works_readSurvey, fun _ => rfl⟩
  case ackNotice => exact ⟨_, works_ackNotice, fun _ => rfl⟩
  case setNoticeOptions => exact ⟨_, works_setNoticeOptions, fun _ => rfl⟩

end Sys2Proof.Proofs.ManagementEngine
end

section
/-! PROOFS. The general checks of an execution and the standing it leaves (R133, R134, R138), and the answers of ECHO and IDENTIFY
(R140, R141). -/

namespace Sys2Proof.Proofs.ManagementEngine

open Sys2Proof.Machine Sys2Proof.Laws Sys2Proof.Claims Sys2Proof.Proofs.CellStore

/-! ## The general checks -/

/-- Nothing may start while a command is in progress, the response queue is full or no command waits (R133). -/
theorem startable_eq_none {e : Engine} (h : e.inProgress ≠ none ∨ 8 ≤ e.entriesUsed ∨ e.commands = []) : startable e = none := by
  refine Option.eq_none_iff_forall_ne_some.mpr fun ⟨c, rest⟩ hstart => ?_
  obtain ⟨hidle, hroom, hqueue⟩ := startable_eq_some.mp hstart
  obtain hbusy | hfull | hempty := h
  · exact hbusy hidle
  · exact absurd hroom (Nat.not_lt.mpr hfull)
  · simp [hqueue] at hempty

theorem runCommand_of_none {s : State} (h : startable s.engine = none) (k : CommandKind) (work : TakenCommand → State → State) :
    runCommand k work s = s := by
  simp only [runCommand, h]

theorem runUnknown_of_none {s : State} (h : startable s.engine = none) : runUnknown s = s := by
  simp only [runUnknown, h]

/-- A step that may start nothing executes nothing (R133). -/
theorem exec_of_none {i : Instr} {s : State} (hi : kindOf i ≠ none ∨ i = .unknownKind) (h : startable s.engine = none) :
    exec i s = .next s := by
  obtain hkind | rfl := hi
  · obtain ⟨k, hk⟩ := Option.ne_none_iff_exists'.mp hkind
    obtain ⟨work, -, hexec⟩ := exec_of_kindOf hk
    rw [hexec]
    exact congrArg Host.Outcome.next (whileRunning_cases (motive := (· = s)) rfl fun _ => runCommand_of_none h k work)
  · exact congrArg Host.Outcome.next (whileRunning_cases (motive := (· = s)) rfl fun _ => runUnknown_of_none h)

section Checks

variable {i : Instr} {k : CommandKind} {c : TakenCommand} {rest : List TakenCommand} {s : State}

theorem kindKnown_of_none {b : Byte} (h : ∀ k, b ≠ kindCode k) : kindKnown b = false := by
  refine List.any_eq_false.mpr fun k _ => ?_
  simpa using (h k).symm

/-- A command of no kind of section 10.3 is answered UNKNOWN_KIND (R133). -/
theorem answers_unknownKind (hrun : s.pins.hardReset = none) (hstart : startable s.engine = some (c, rest))
    (hkind : ∀ k, c.kind ≠ kindCode k) : Answers .unknownKind c rest .unknownKind [] s s := by
  have hexec : exec .unknownKind s = .next (complete c .unknownKind [] (beginCommand rest s)) := by
    simp only [exec, execUnknownKind, whileRunning_of_running hrun, runUnknown, hstart, kindKnown_of_none hkind, Bool.false_eq_true,
      if_false]
  exact answers_complete hexec rfl

/-- A command with too few operand bytes is answered LENGTH (R133). -/
theorem answers_length (hi : kindOf i = some k) (hrun : s.pins.hardReset = none) (hstart : startable s.engine = some (c, rest))
    (hkind : c.kind = kindCode k) (hshort : c.operands.length < operandsNeeded k c.operands) : Answers i c rest .length [] s s := by
  obtain ⟨work, -, hexec⟩ := exec_of_kindOf hi
  have hexec := hexec s
  rw [whileRunning_of_running hrun, runCommand_of_short hstart hkind hshort] at hexec
  exact answers_complete hexec rfl

/-! ## The standing a command leaves -/

/-- A command other than RESTART that is not left in progress has been answered at once, and its number is COMPLETED if it is the last
taken (R134). -/
theorem standing_of_completed {t : State} (hi : kindOf i = some k) (hk : k ≠ .restart) (hready : Ready k c rest s)
    (ht : exec i s = .next t) (hdone : t.engine.inProgress = none) : t.engine.lastTaken = standingAt .completed rest s.engine := by
  obtain ⟨work, hwork, hexec⟩ := exec_of_kindOf hi
  have hran := exec_of_ready hready (hexec s)
  rw [ht] at hran
  obtain rfl := Host.Outcome.next.inj hran
  have hout := hwork c (beginCommand rest s)
  rw [engine_beginCommand] at hout
  generalize (work c (beginCommand rest s)).engine = e at hout hdone
  cases hout with
  | answered r d => exact standing_answered_begun c rest r d s.engine
  | pended _ => cases hdone
  | restarted _ restarts => exact absurd restarts hk

end Checks

/-- Settles O40: a step that may start nothing is idle; the two answers of the general checks; and of the ways its work can leave the engine,
the one that answers a command at once. -/
theorem generalChecksOfExecution : Obligations.GeneralChecksOfExecution := by
  unfold Obligations.GeneralChecksOfExecution
  refine ⟨fun i s hi h => exec_of_none hi (startable_eq_none h), ?_, ?_, ?_⟩
  · intro c rest s hrun hidle hroom hqueue hkind
    exact answers_unknownKind hrun (startable_eq_some.mpr ⟨hidle, hroom, hqueue⟩) hkind
  · intro i k c rest s hi hrun hidle hroom hqueue hkind hshort
    exact answers_length hi hrun (startable_eq_some.mpr ⟨hidle, hroom, hqueue⟩) hkind hshort
  · intro i k c rest s t hi hk hready ht hdone
    exact standing_of_completed hi hk hready ht hdone

/-! ## ECHO and IDENTIFY -/

/-- The eight data bytes of IDENTIFY spell the store's 512 buffers as a two-byte value (R141, R179). -/
theorem workIdentify_eq (c : TakenCommand) (s : State) :
    workIdentify c s = complete c .ok ([0x4E, 0x08, 0x18, 2] ++ bytes16 512 ++ [8, 2]) s := rfl

/-- Settles O41: each is ready, and is its own completion over the part as its execution began. -/
theorem echoAndIdentifyAnswer : Obligations.EchoAndIdentifyAnswer := by
  unfold Obligations.EchoAndIdentifyAnswer
  refine fun c rest s => ⟨fun hready => ?_, fun hready => ?_⟩
  · have hexec : exec .echo s = .next (workEcho c (beginCommand rest s)) := exec_of_ready hready rfl
    exact answers_complete hexec rfl
  · have hexec : exec .identify s = .next (workIdentify c (beginCommand rest s)) := exec_of_ready hready rfl
    rw [workIdentify_eq] at hexec
    exact answers_complete hexec rfl

end Sys2Proof.Proofs.ManagementEngine
end

section
/-! PROOFS. Intake: what an arrival on tag 1022 is by its cell and by the last taken number, and what each of them does (R127 to R130). -/

namespace Sys2Proof.Proofs.ManagementEngine

open Sys2Proof.Machine Sys2Proof.Laws Sys2Proof.Claims Sys2Proof.Proofs.TrunkReceive

/-! ## The command a cell carries -/

/-- The bytes of the payload below the fill are those the line carries there (R1). -/
theorem byteAt_meaningful {fill : Fill} {i : Nat} (hi : i < fill.toNat) (hf : fill.toNat ≤ 32) (payload : List Byte) :
    byteAt (meaningful fill payload) i = byteAt payload i := by
  have hp : i < Config.payloadBytes := Nat.lt_of_lt_of_le hi hf
  simp [byteAt, meaningful, hi, hp]

theorem byteAt_drop (bytes : List Byte) (k i : Nat) : byteAt (bytes.drop k) i = byteAt bytes (k + i) := by
  simp [byteAt]

/-- The command of a cell received: payload byte 0 is its kind, 1 its number, and 2 to fill - 1 its operands (R127). -/
theorem commandOf_decodeCell {bytes : List Byte} (hlow : 2 ≤ (decodeCell bytes).fill.toNat) (hhigh : (decodeCell bytes).fill.toNat ≤ 32) :
    commandOf (decodeCell bytes) =
      { kind := byteAt bytes 4, seq := byteAt bytes 5, operands := (bytes.drop 6).take ((decodeCell bytes).fill.toNat - 2),
        fill := (decodeCell bytes).fill } := by
  have hpayload : (decodeCell bytes).payload = meaningful (decodeCell bytes).fill (bytes.drop 4) := rfl
  have hbyte : ∀ i, i < 2 → byteAt (decodeCell bytes).payload i = byteAt bytes (4 + i) := fun i hi => by
    rw [hpayload, byteAt_meaningful (by omega) hhigh, byteAt_drop]
  have hoperands : (decodeCell bytes).payload.drop 2 = (bytes.drop 6).take ((decodeCell bytes).fill.toNat - 2) := by
    rw [hpayload, meaningful, List.take_take, Nat.min_eq_left (show _ ≤ Config.payloadBytes from hhigh), List.drop_take, List.drop_drop]
  simp only [commandOf, hbyte 0 (by omega), hbyte 1 (by omega), hoperands]

theorem isCommand_iff {c : Cell} :
    c.isCommand = true ↔ c.position = .sole ∧ c.abandon = false ∧ 2 ≤ c.fill.toNat ∧ c.fill.toNat ≤ 32 := by
  simp [Cell.isCommand, and_assoc]

/-! ## Duplicates -/

/-- A duplicate carries the last taken number, which is not 0 (R128). -/
theorem isDuplicate_iff {e : Engine} {c : TakenCommand} : isDuplicate e c = true ↔ c.seq ≠ 0 ∧ ∃ st, e.lastTaken = some (c.seq, st) := by
  unfold isDuplicate
  split
  · next number st h => simp [h]
  · next h => simp [h]

/-- A number that is 0 or not the last taken repeats no command (R128). -/
theorem isDuplicate_eq_false {e : Engine} {c : TakenCommand} (h : c.seq = 0 ∨ ∀ st, e.lastTaken ≠ some (c.seq, st)) :
    isDuplicate e c = false := by
  refine Bool.eq_false_iff.mpr fun hd => ?_
  obtain ⟨hnonzero, st, hlast⟩ := isDuplicate_iff.mp hd
  exact h.elim hnonzero fun hother => hother st hlast

/-- Before its command has completed, no response can be repeated (R128, R129). -/
theorem repeatable_eq_none {e : Engine} {seq number : Byte} {st : Standing} (h : e.lastTaken = some (number, st)) (hst : st ≠ .completed) :
    repeatable e seq = none := by
  cases st with
  | queued | executing => simp [repeatable, h]
  | completed => exact absurd rfl hst

theorem repeatable_eq_some {e : Engine} {number : Byte} {r : Response} (h : e.lastTaken = some (number, .completed))
    (hstored : e.stored = some r) (hr : r.seq = number) : repeatable e number = some r := by
  simp [repeatable, h, hstored, hr]

/-- A duplicate dropped and counted (R129). -/
theorem takeDuplicate_of_none {s : State} {c : TakenCommand} (h : repeatable s.engine c.seq = none) :
    takeDuplicate c s = countManagement .bumpDuplicates s := by
  simp only [takeDuplicate, h]

theorem takeDuplicate_of_full {s : State} {c : TakenCommand} {r : Response} (h : repeatable s.engine c.seq = some r)
    (hfull : 8 ≤ s.engine.entriesUsed) : takeDuplicate c s = countManagement .bumpDuplicates s := by
  have hroom : s.engine.room = false := decide_eq_false (Nat.not_lt.mpr hfull)
  simp only [takeDuplicate, h, hroom, Bool.false_eq_true, if_false]

/-- A duplicate answered with a flagged copy of the stored response (R129). -/
theorem takeDuplicate_of_room {s : State} {c : TakenCommand} {r : Response} (h : repeatable s.engine c.seq = some r)
    (hfree : s.engine.entriesUsed < 8) :
    takeDuplicate c s = { s with engine := { s.engine with placed := s.engine.placed ++ [{ r with repeated := true }] } } := by
  have hroom : s.engine.room = true := decide_eq_true hfree
  simp only [takeDuplicate, h, hroom, if_true]

/-- A duplicate reaches the engine and the counter bank alone. -/
theorem takeDuplicate_eq (c : TakenCommand) (s : State) :
    takeDuplicate c s = { s with engine := (takeDuplicate c s).engine, bank := (takeDuplicate c s).bank } := by
  unfold takeDuplicate
  split
  · split <;> rfl
  · rfl

/-! ## Commands taken, and overruns -/

theorem takeCommand_of_room {s : State} (h : s.engine.commands.length < 4) (c : TakenCommand) :
    takeCommand c s =
      countManagement .bumpTaken
        { s with engine := { s.engine with commands := s.engine.commands ++ [c], lastTaken := some (c.seq, .queued) } } :=
  if_pos h

theorem takeCommand_of_full {s : State} (h : 4 ≤ s.engine.commands.length) (c : TakenCommand) :
    takeCommand c s = post .commandOverrun 0 c.seq (countManagement .bumpOverruns s) :=
  if_neg (Nat.not_lt.mpr h)

/-! ## The arrival -/

section Arrival

variable {bytes : List Byte} {turn : Turn} {between : List StoreEvent} {s : State}

/-- A cell on tag 1022 goes to the engine (R107, R127). -/
theorem exec_of_management (h : Tests .trunk .locked bytes 36 s) (hv : headerValid bytes = true) (htag : (decodeCell bytes).tag = 1022) :
    exec (.lockedHeaderTest .trunk bytes between turn) s = .next (managementArrival (decodeCell bytes) (passed s)) := by
  have hidle : (decodeCell bytes).tag ≠ idleTag := by rw [htag]; decide
  have hhigh : ¬(decodeCell bytes).tag.toNat < Config.assignableTags := by rw [htag]; decide
  rw [exec_locked_trunk h hv hidle, trunkArrival, if_neg hhigh, if_pos (show _ = managementTag from htag)]

theorem managementArrival_of_malformed {c : Cell} (h : ¬c.isCommand = true) :
    managementArrival c s = countTrunk .bumpManagementMalformed s := by
  simp only [managementArrival, h, Bool.not_false, if_true]

theorem managementArrival_of_duplicate {c : Cell} (h : c.isCommand = true) (hd : isDuplicate s.engine (commandOf c) = true) :
    managementArrival c s = takeDuplicate (commandOf c) s := by
  simp only [managementArrival, h, hd, Bool.not_true, Bool.false_eq_true, if_false, if_true]

theorem managementArrival_of_new {c : Cell} (h : c.isCommand = true) (hd : isDuplicate s.engine (commandOf c) = false) :
    managementArrival c s = takeCommand (commandOf c) s := by
  simp only [managementArrival, h, hd, Bool.not_true, Bool.false_eq_true, if_false]

end Arrival

/-- Settles O28: a well-formed command that is no duplicate is taken or overruns, by the length of the queue. -/
theorem commandIsTakenOrOverruns : Obligations.CommandIsTakenOrOverruns := by
  unfold Obligations.CommandIsTakenOrOverruns
  rintro bytes turn between s _ htests hvalid rfl htag hsole hx hlow hhigh hnew
  have hcommand := isCommand_iff.mpr ⟨hsole, hx, hlow, hhigh⟩
  have hcarried := commandOf_decodeCell hlow hhigh
  have hd : isDuplicate (passed s).engine (commandOf (decodeCell bytes)) = false :=
    isDuplicate_eq_false (by rw [hcarried]; exact hnew)
  rw [exec_of_management htests hvalid htag, managementArrival_of_new hcommand hd]
  obtain ⟨-, hpins, -, hstore, hports, hplans, hscheduler, hchannels, hsurvey⟩ :=
    takeCommand_leaves (commandOf (decodeCell bytes)) (passed s)
  refine ⟨_, rfl, hstore, hports, hplans, hscheduler, hchannels, hsurvey, hpins, fun hroom => ?_, fun hfull => ?_⟩
  · rw [takeCommand_of_room (by exact hroom), hcarried]
    exact ⟨rfl, rfl, rfl⟩
  · rw [takeCommand_of_full (by exact hfull), hcarried]
    have hmanagement := post_management .commandOverrun 0 (byteAt bytes 5) (countManagement .bumpOverruns (passed s))
    refine ⟨by simp [passed], post_notices_congr rfl, ?_, ?_, by simp [passed], by simp [passed], by simp [passed]⟩
    · exact (congrArg ManagementCounters.overruns hmanagement).trans rfl
    · exact (congrArg ManagementCounters.commandsTaken hmanagement).trans rfl

/-- Settles O29: a cell that is no command is counted, and a duplicate is repeated or dropped by the standing of its command and the room for a
response. -/
theorem duplicateIsRepeatedOrDropped : Obligations.DuplicateIsRepeatedOrDropped := by
  unfold Obligations.DuplicateIsRepeatedOrDropped
  rintro bytes turn between s _ htests hvalid rfl htag hkind
  rw [exec_of_management htests hvalid htag, ← isCommand_iff]
  rw [← isCommand_iff] at hkind
  by_cases hcommand : (decodeCell bytes).isCommand = true
  · obtain ⟨-, -, hlow, hhigh⟩ := isCommand_iff.mp hcommand
    have hseq : (commandOf (decodeCell bytes)).seq = byteAt bytes 5 := by rw [commandOf_decodeCell hlow hhigh]
    have hd : isDuplicate (passed s).engine (commandOf (decodeCell bytes)) = true :=
      isDuplicate_iff.mpr (by rw [hseq]; exact hkind.resolve_left (not_not_intro hcommand))
    rw [managementArrival_of_duplicate hcommand hd]
    refine ⟨_, rfl, ?_, fun hmalformed => absurd hcommand hmalformed,
      fun _ _ _ _ _ => ⟨fun st hlast hst => ?_, fun r hlast hstored hr => ?_⟩⟩
    · rw [takeDuplicate_eq]
      rfl
    · rw [takeDuplicate_of_none (s := passed s) (repeatable_eq_none hlast hst)]
      exact ⟨rfl, rfl⟩
    · have hrepeat : repeatable (passed s).engine (commandOf (decodeCell bytes)).seq = some r := by
        rw [hseq]
        exact repeatable_eq_some hlast hstored hr
      refine ⟨fun hfree => ?_, fun hfull => ?_⟩
      · rw [takeDuplicate_of_room hrepeat hfree]
        exact ⟨rfl, rfl⟩
      · rw [takeDuplicate_of_full hrepeat hfull]
        exact ⟨rfl, rfl⟩
  · rw [managementArrival_of_malformed hcommand]
    exact ⟨_, rfl, rfl, fun _ => ⟨rfl, rfl⟩,
      fun hsole hx hlow hhigh => absurd (isCommand_iff.mpr ⟨hsole, hx, hlow, hhigh⟩) hcommand⟩

end Sys2Proof.Proofs.ManagementEngine
end

section
/-! PROOFS. The one list of what a step can do to the engine, and that every event does no more, operation by operation. -/

namespace Sys2Proof.Proofs.ManagementEngine

open Sys2Proof.Machine Sys2Proof.Laws Sys2Proof.Claims Sys2Proof.Proofs.CellLink Sys2Proof.Proofs.Plans Relation

/-! ## Moves of the engine -/

/-- Every way one operation can move the engine (R129, R130, R133, R134, R85, R16). -/
inductive EngineMove (e : Engine) : Engine → Prop
  | taken (c : TakenCommand) (room : e.commands.length < Config.commandDepth) :
      EngineMove e { e with commands := e.commands ++ [c], lastTaken := some (c.seq, .queued) }
  | repeated (r : Response) (room : e.entriesUsed < Config.responseDepth) : EngineMove e { e with placed := e.placed ++ [r] }
  | sent (r : Response) (rest : List Response) (head : e.placed = r :: rest) : EngineMove e { e with placed := rest }
  | executed (k : CommandKind) (c : TakenCommand) (rest : List TakenCommand) {e' : Engine} (start : startable e = some (c, rest))
      (outcome : WorkOutcome k c (begun rest e) e') : EngineMove e e'
  | finished (c : TakenCommand) (r : Result) (d : List Byte) (working : e.inProgress = some c) : EngineMove e (answered c r d e)
  | halted : EngineMove e { e with inProgress := none, reserved := false }
  | cleared : EngineMove e { commands := [], inProgress := none, placed := [], reserved := false, lastTaken := none, stored := none }

/-- The moves of one step, which can be several: an arrival from the trunk has store events between its two offers (R116). -/
abbrev EngineRun : Engine → Engine → Prop := ReflTransGen EngineMove

theorem EngineRun.of_eq {e e' : Engine} (h : e' = e) : EngineRun e e' := h ▸ .refl

theorem EngineMove.run {e e' : Engine} (h : EngineMove e e') : EngineRun e e' := .single h

/-- An event that moves the engine in the ways of `EngineMove` alone. -/
def Runs (event : State → State) : Prop := ∀ s, EngineRun s.engine (event s).engine

/-- A run from a state whose engine is the same. -/
theorem Runs.of_engine {event : State → State} (h : Runs event) {s t : State} (ht : t.engine = s.engine) :
    EngineRun s.engine (event t).engine := ht ▸ h t

theorem runs_of_leaves {event : State → State} (h : ∀ s, (event s).engine = s.engine) : Runs event := fun s => .of_eq (h s)

theorem runs_id : Runs id := fun _ => .refl

/-! ## Executions -/

theorem runs_runCommand {k : CommandKind} {work : TakenCommand → State → State} (hw : Works k work) : Runs (runCommand k work) := fun s =>
  runCommand_cases (motive := fun t => EngineRun s.engine t.engine) .refl
    (fun c rest hstart => (EngineMove.executed k c rest hstart (outcome_complete rfl)).run)
    (fun c rest hstart => (EngineMove.executed k c rest hstart (hw c (beginCommand rest s))).run)

/-- A command of no kind is answered as any command is; its outcome is that of every kind. -/
theorem runs_runUnknown : Runs runUnknown := fun s =>
  runUnknown_cases (motive := fun t => EngineRun s.engine t.engine) .refl
    fun c rest hstart => (EngineMove.executed .echo c rest hstart (outcome_complete rfl)).run

/-! ## Arrivals from the trunk -/

theorem runs_managementArrival (c : Cell) : Runs (managementArrival c) := by
  intro s
  unfold managementArrival
  split
  · exact .refl
  · split
    · unfold takeDuplicate
      split
      · split
        · next r _ hroom => exact (EngineMove.repeated _ (of_decide_eq_true hroom)).run
        · exact .refl
      · exact .refl
    · unfold takeCommand
      split
      · next hroom => exact (EngineMove.taken _ hroom).run
      · exact .of_eq (by simp)

theorem runs_continueDown {between : State → State} (hb : Runs between) (tag : Tag) (n : Trib) (channel : Channel) (next : Index)
    (c : Cell) : Runs (continueDown between tag n channel next c) := by
  intro s
  unfold continueDown
  dsimp only
  split
  · split <;> exact .of_eq (by simp)
  · split
    · exact .of_eq (by simp)
    · split
      · set u := giveUpDown tag n channel next (offerDown n { c with tag := channel.setWidth 10 } s) with hu
        have taken : EngineRun s.engine (between u).engine := hb.of_engine (by simp [hu])
        exact taken.trans (EngineRun.of_eq (by simp))
      · exact .of_eq (by simp)

theorem runs_channelArrival {between : State → State} (hb : Runs between) (c : Cell) : Runs (channelArrival between c) := by
  intro s
  unfold channelArrival
  split
  case h_5 | h_6 => exact runs_continueDown hb _ _ _ _ _ s
  all_goals exact .of_eq (by simp)

theorem runs_trunkArrival {between : State → State} (hb : Runs between) (c : Cell) : Runs (trunkArrival between c) := by
  intro s
  unfold trunkArrival
  split
  · split
    · exact runs_channelArrival hb c s
    · exact .of_eq (by simp)
  · split
    · exact runs_managementArrival c s
    · split <;> exact .refl

/-- A cell handed on reaches the engine on the trunk alone, by tag 1022 or by what the store takes between two offers (R107, R116, R127). -/
theorem runs_handOn {between : State → State} (hb : Runs between) (l : Link) (c : Cell) : Runs (handOn between l c) := by
  intro s
  unfold handOn
  split
  · exact .refl
  · cases l with
    | trunk => exact runs_trunkArrival hb c s
    | tributary n => exact .of_eq (by simp)

/-! ## Header tests and signals -/

@[simp] theorem countBadHeader_engine (l : Link) (s : State) : (countBadHeader l s).engine = s.engine := by
  cases l <;> rfl

@[simp] theorem reportLockLost_engine (turn : Turn) (l : Link) (s : State) : (reportLockLost turn l s).engine = s.engine := by
  cases l <;> simp [reportLockLost]

theorem runs_seekTest (l : Link) (bytes : List Byte) : Runs (seekTest l bytes) := by
  refine runs_of_leaves fun s => ?_
  unfold seekTest
  dsimp only
  split
  · split <;> simp
  · rfl

theorem runs_enterLocked (turn : Turn) (l : Link) (bytes : List Byte) : Runs (enterLocked turn l bytes) := by
  intro s
  unfold enterLocked
  have handed := runs_handOn runs_id l (decodeCell bytes)
  refine postBeside_cases (motive := fun t => EngineRun s.engine t.engine) (handed.of_engine (by simp)) ?_
  simp only [postLocked_leaves]
  exact handed.of_engine (by simp)

theorem runs_confirmTest (turn : Turn) (l : Link) (bytes : List Byte) : Runs (confirmTest turn l bytes) := by
  intro s
  unfold confirmTest
  dsimp only
  split
  · split
    · split
      · exact .of_eq (by simp)
      · exact runs_enterLocked turn l bytes s
    · exact .of_eq (by simp)
  · exact .refl

theorem runs_lockedTestWith {between : State → State} (hb : Runs between) (turn : Turn) (l : Link) (bytes : List Byte) :
    Runs (lockedTestWith between turn l bytes) := by
  intro s
  unfold lockedTestWith
  dsimp only
  split
  · split
    · exact (runs_handOn hb l (decodeCell bytes)).of_engine (by simp)
    · split <;> exact .of_eq (by simp)
  · exact .refl

theorem runs_signalLossEvent (turn : Turn) (l : Link) : Runs (signalLossEvent turn l) := by
  refine runs_of_leaves fun s => ?_
  unfold signalLossEvent
  dsimp only
  split
  · simp
  · split <;> simp

theorem runs_signalReturnEvent (l : Link) : Runs (signalReturnEvent l) := by
  refine runs_of_leaves fun s => ?_
  unfold signalReturnEvent
  split
  · rfl
  · split <;> simp

/-! ## Slots and cell times -/

theorem takeUp_engine {n : Trib} {c : Cell} {s t : State} (h : takeUp n s = some (c, t)) : t.engine = s.engine := by
  obtain ⟨rest, -, rfl⟩ := takeUp_eq_some h
  rfl

@[simp] theorem afterSend_engine (n : Trib) (c : Cell) (s : State) : (afterSend n c s).engine = s.engine := by
  unfold afterSend
  split <;> rfl

@[simp] theorem decideSpare_engine (s : State) : (decideSpare s).state.engine = s.engine := by
  unfold decideSpare
  split
  · rfl
  · dsimp only
    split
    · rfl
    · split
      · next htake => rw [afterSend_engine, takeUp_engine htake]
      · rfl

@[simp] theorem decideOwn_engine (n : Trib) (s : State) : (decideOwn n s).state.engine = s.engine := by
  unfold decideOwn
  split
  · rfl
  · split
    · next htake => rw [afterSend_engine, takeUp_engine htake]
    · exact decideSpare_engine s

/-- A slot reaches the engine where it sends the oldest placed response (R85). -/
theorem run_decideSlot (o : Owner) (s : State) : EngineRun s.engine (decideSlot o s).state.engine := by
  cases o with
  | trib n => exact .of_eq (decideOwn_engine n s)
  | openSlot => exact .of_eq (decideSpare_engine s)
  | management =>
    unfold decideSlot decideManagement
    dsimp only
    split
    · next r rest hplaced => exact (EngineMove.sent r rest hplaced).run
    · split
      · exact .refl
      · exact .of_eq (decideSpare_engine s)

@[simp] theorem advanceSlot_engine (length : Nat) (s : State) : (advanceSlot length s).engine = s.engine := by
  unfold advanceSlot
  split <;> rfl

@[simp] theorem settleNotices_engine (s : State) : (settleNotices s).engine = s.engine := by
  unfold settleNotices
  split
  · rfl
  · simp [noticesTakeBoundary_leaves]

@[simp] theorem carrySlot_engine (length : Nat) (d : Decision) : (carrySlot length d).engine = d.state.engine := by
  simp [carrySlot, surveyTakesBoundary_leaves]

theorem runs_slotEvent : Runs slotEvent := by
  intro s
  unfold slotEvent
  split
  · exact .refl
  · dsimp only
    rw [carrySlot_engine, ← settleNotices_engine s]
    exact run_decideSlot _ _

theorem runs_cellTimeEvent (n : Trib) : Runs (cellTimeEvent n) := by
  refine runs_of_leaves fun s => ?_
  unfold cellTimeEvent
  split
  · split
    · next htake =>
      obtain ⟨rest, -, rfl⟩ := takeDown_eq_some htake
      rfl
    · rfl
  · rfl

/-! ## Between two offers (R116) -/

theorem runs_runStoreEvent (e : StoreEvent) : Runs (runStoreEvent e) := by
  intro s
  cases e with
  | slot => exact runs_slotEvent s
  | cellTime n => exact runs_cellTimeEvent n s
  | headerTest n bytes turn =>
    simp only [runStoreEvent]
    split
    · exact runs_confirmTest turn _ bytes s
    · exact runs_lockedTestWith runs_id turn _ bytes s
  | signalLoss n turn => exact runs_signalLossEvent turn _ s
  | writePort turn => exact runs_runCommand (works_writePort turn) s
  | flushPort => exact runs_runCommand works_flushPort s

theorem runs_runStoreEvents (events : List StoreEvent) : Runs (runStoreEvents events) := by
  induction events with
  | nil => exact runs_id
  | cons e rest ih => exact fun s => (runs_runStoreEvent e s).trans (ih _)

/-! ## Boundaries -/

/-- The switch at a boundary answers the SWITCH PLAN in progress (R73, R136). -/
theorem runs_switchPlans (target : PlanId) (mode : SwitchMode) : Runs (switchPlans target mode) := by
  intro s
  unfold switchPlans
  dsimp only
  split
  · next c hworking =>
    simp only [engine_complete, reportPlanChange_leaves, post_leaves]
    exact (EngineMove.finished c _ _ hworking).run
  · exact .of_eq (by simp)

theorem runs_plansTakeBoundary : Runs plansTakeBoundary := by
  intro s
  cases hdue : s.scheduler.due.plan with
  | false => exact .of_eq (by rw [plansTakeBoundary_of_taken hdue])
  | true =>
    cases hswitch : s.plans.switch with
    | steady => exact .of_eq (by rw [plansTakeBoundary_of_steady hswitch])
    | pending target mode =>
      rw [plansTakeBoundary_of_pending hdue hswitch]
      exact runs_switchPlans target mode (plansTaken s)
    | trial remaining fallback =>
      by_cases hlast : remaining.toNat ≤ 1
      · rw [plansTakeBoundary_of_last hdue hswitch hlast]
        exact .of_eq (by simp [revertPlans, plansTaken])
      · rw [plansTakeBoundary_of_more hdue hswitch (by omega)]
        exact .refl

theorem surveyCountsBoundary_engine (s : State) : (surveyCountsBoundary s).engine = s.engine := by
  rw [surveyCountsBoundary_eq]

theorem noticesTakeBoundary_engine (s : State) : (noticesTakeBoundary s).engine = s.engine := by
  simp [noticesTakeBoundary_leaves]

theorem surveyTakesBoundary_engine (s : State) : (surveyTakesBoundary s).engine = s.engine := by
  simp [surveyTakesBoundary_leaves]

theorem runs_planAndSurvey {taking : State → State} (h : Runs taking) (turn : Turn) : Runs (planAndSurvey turn taking) := fun s =>
  postBeside_cases (motive := fun t => EngineRun s.engine t.engine) (h.of_engine (by simp)) ((h s).trans (EngineRun.of_eq (by simp)))

theorem runs_deliverBoundary {blocks : State → State} (h : Runs blocks) (noticesLate : Bool) : Runs (deliverBoundary noticesLate blocks) := by
  intro s
  unfold deliverBoundary
  split
  · dsimp only
    split
    · exact h.of_engine rfl
    · rw [noticesTakeBoundary_engine]
      exact h.of_engine rfl
  · exact .refl

theorem runs_boundaryEvent (order : BoundaryOrder) : Runs (boundaryEvent order) := by
  intro s
  unfold boundaryEvent
  split
  · exact .of_eq (surveyTakesBoundary_engine s)
  · exact runs_deliverBoundary
      (runs_planAndSurvey (fun u => runs_plansTakeBoundary.of_engine (surveyCountsBoundary_engine u)) order.surveyPost) order.noticesLate s
  · exact runs_deliverBoundary
      (runs_planAndSurvey (fun u => (runs_plansTakeBoundary u).trans (EngineRun.of_eq (surveyCountsBoundary_engine _))) order.surveyPost)
      order.noticesLate s
  · exact runs_deliverBoundary runs_plansTakeBoundary order.noticesLate s

theorem runs_revertEvent : Runs revertEvent := by
  intro s
  unfold revertEvent
  split
  · exact runs_plansTakeBoundary.of_engine rfl
  · exact .refl

theorem runs_expiryEvent : Runs expiryEvent := by
  refine runs_of_leaves fun s => ?_
  unfold expiryEvent
  split
  · exact noticesTakeBoundary_engine s
  · rfl

theorem runs_surveyDoneEvent : Runs surveyDoneEvent := by
  refine runs_of_leaves fun s => ?_
  unfold surveyDoneEvent
  split
  · exact surveyTakesBoundary_engine s
  · rfl

/-! ## Hard reset -/

/-- The beginning of a hard reset ends a SWITCH PLAN in progress without answer (R57). -/
theorem runs_beginHardReset (cause : ResetCause) : Runs (beginHardReset cause) := fun _ => EngineMove.halted.run

theorem runs_powerOnEvent : Runs powerOnEvent := fun _ => (runs_beginHardReset .powerOn).of_engine rfl

theorem runs_resetNEvent : Runs resetNEvent := by
  intro s
  unfold resetNEvent
  dsimp only
  split
  · exact (runs_beginHardReset .resetPin).of_engine rfl
  · exact .refl

theorem runs_hardResetEndEvent : Runs hardResetEndEvent := by
  intro s
  unfold hardResetEndEvent
  split
  · exact EngineMove.cleared.run
  · exact .refl

/-! ## Every step -/

theorem runs_whileRunning {event : State → State} (h : Runs event) : Runs (whileRunning · event) := fun s =>
  whileRunning_cases (motive := fun t => EngineRun s.engine t.engine) .refl fun _ => h s

/-- Every step is an event that moves the engine in the ways of `EngineMove` alone. -/
theorem exec_runs (i : Instr) : ∃ event, Runs event ∧ ∀ s, exec i s = .next (event s) := by
  cases hkind : kindOf i with
  | some k =>
    obtain ⟨work, hwork, hexec⟩ := exec_of_kindOf hkind
    exact ⟨_, runs_whileRunning (runs_runCommand hwork), hexec⟩
  | none =>
    cases i with
    | powerOn => exact ⟨_, runs_powerOnEvent, fun _ => rfl⟩
    | resetN => exact ⟨_, runs_resetNEvent, fun _ => rfl⟩
    | hardResetEnd => exact ⟨_, runs_hardResetEndEvent, fun _ => rfl⟩
    | signalLoss l turn => exact ⟨_, runs_signalLossEvent turn l, fun _ => rfl⟩
    | signalReturn l => exact ⟨_, runs_signalReturnEvent l, fun _ => rfl⟩
    | seekHeaderTest l bytes => exact ⟨_, runs_whileRunning (runs_seekTest l bytes), fun _ => rfl⟩
    | confirmHeaderTest l bytes turn => exact ⟨_, runs_whileRunning (runs_confirmTest turn l bytes), fun _ => rfl⟩
    | lockedHeaderTest l bytes between turn =>
      exact ⟨_, runs_whileRunning (runs_lockedTestWith (runs_runStoreEvents between) turn l bytes), fun _ => rfl⟩
    | slot => exact ⟨_, runs_whileRunning runs_slotEvent, fun _ => rfl⟩
    | cycleBoundary order => exact ⟨_, runs_whileRunning (runs_boundaryEvent order), fun _ => rfl⟩
    | planReverted => exact ⟨_, runs_whileRunning runs_revertEvent, fun _ => rfl⟩
    | noticeRepeatExpiry => exact ⟨_, runs_whileRunning runs_expiryEvent, fun _ => rfl⟩
    | surveyDone => exact ⟨_, runs_whileRunning runs_surveyDoneEvent, fun _ => rfl⟩
    | tributaryCellTime n => exact ⟨_, runs_whileRunning (runs_cellTimeEvent n), fun _ => rfl⟩
    | unknownKind => exact ⟨_, runs_whileRunning runs_runUnknown, fun _ => rfl⟩
    | _ => cases hkind

theorem exec_engineRun {i : Instr} {s t : State} (ht : exec i s = .next t) : EngineRun s.engine t.engine := by
  obtain ⟨event, hruns, hexec⟩ := exec_runs i
  obtain rfl := Host.Outcome.next.inj ((hexec s).symm.trans ht)
  exact hruns s

end Sys2Proof.Proofs.ManagementEngine
end

section
/-! PROOFS. The law of the engine's queues: every move of the engine keeps it, and so every step (R128, R130, R137). -/

namespace Sys2Proof.Proofs.ManagementEngine

open Sys2Proof.Machine Sys2Proof.Safety Sys2Proof.Laws Sys2Proof.Claims

/-! ## The law on the engine alone -/

/-- The law of the engine's queues, on the engine. -/
structure EngineLaw (e : Engine) : Prop where
  commands : e.commands.length ≤ Config.commandDepth
  responses : e.entriesUsed ≤ Config.responseDepth
  reserved : e.reserved = e.inProgress.isSome
  queued : ∀ c rest, e.commands = rest ++ [c] → e.lastTaken = some (c.seq, .queued)
  executing : ∀ c, e.commands = [] → e.inProgress = some c → e.lastTaken = some (c.seq, .executing)
  completed : ∀ number, e.lastTaken = some (number, .completed) → ∃ r, e.stored = some r ∧ r.seq = number

theorem engineOk_iff {s : State} : EngineOk s ↔ EngineLaw s.engine :=
  ⟨fun ⟨commands, responses, reserved, queued, executing, completed⟩ =>
      ⟨commands, responses, reserved, queued, executing, completed⟩,
    fun ⟨commands, responses, reserved, queued, executing, completed⟩ =>
      ⟨commands, responses, reserved, queued, executing, completed⟩⟩

/-- The law while a command is at work: its entry of the response queue is reserved, and it is the last taken if none waits behind it. -/
structure Working (c : TakenCommand) (e : Engine) : Prop where
  commands : e.commands.length ≤ Config.commandDepth
  responses : e.placed.length < Config.responseDepth
  reserved : e.reserved = true
  queued : ∀ c rest, e.commands = rest ++ [c] → e.lastTaken = some (c.seq, .queued)
  executing : e.commands = [] → e.lastTaken = some (c.seq, .executing)

/-- While a command is at work the last taken command has not completed. -/
theorem Working.not_completed {c : TakenCommand} {e : Engine} (h : Working c e) (number : Byte) : e.lastTaken ≠ some (number, .completed) := by
  obtain hempty | ⟨rest, last, hlast⟩ := List.eq_nil_or_concat e.commands
  · simp [h.executing hempty]
  · simp [h.queued last rest (by simpa using hlast)]

/-- The start of an execution under the law puts its command to work: as the head of the queue it was the last taken if it was alone (R133). -/
theorem working_begun {c : TakenCommand} {rest : List TakenCommand} {e : Engine} (h : EngineLaw e) (start : startable e = some (c, rest)) :
    Working c (begun rest e) := by
  obtain ⟨hidle, hroom, hqueue⟩ := startable_eq_some.mp start
  have hplaced : e.placed.length ≤ e.entriesUsed := Nat.le_add_right _ _
  have hcommands := h.commands
  rw [hqueue, List.length_cons] at hcommands
  refine ⟨?_, ?_, by simp, fun last before hlast => ?_, fun hempty => ?_⟩
  · simpa using Nat.le_of_succ_le hcommands
  · simpa using Nat.lt_of_le_of_lt hplaced hroom
  · have hrest : rest = before ++ [last] := by simpa using hlast
    have htaken := h.queued last (c :: before) (by rw [hqueue, hrest, List.cons_append])
    simp [standingAt, hrest, htaken]
  · have hrest : rest = [] := by simpa using hempty
    have htaken := h.queued c [] (by rw [hqueue, hrest, List.nil_append])
    simp [standingAt, hrest, htaken]

/-- A command in progress under the law is at work. -/
theorem working_of_inProgress {c : TakenCommand} {e : Engine} (h : EngineLaw e) (hworking : e.inProgress = some c) : Working c e := by
  have hreserved : e.reserved = true := by simp [h.reserved, hworking]
  have hresponses := h.responses
  simp only [Engine.entriesUsed, hreserved, if_true] at hresponses
  exact ⟨h.commands, hresponses, hreserved, h.queued, fun hempty => h.executing c hempty hworking⟩

/-- The answer of the command at work keeps the law: its response is the one stored, under the number that becomes COMPLETED (R134). -/
theorem Working.answered {c : TakenCommand} {e : Engine} (h : Working c e) (r : Result) (d : List Byte) : EngineLaw (answered c r d e) where
  commands := by simpa using h.commands
  responses := by simpa [Engine.entriesUsed] using h.responses
  reserved := by simp
  queued last rest hlast := by
    have hcommands : e.commands = rest ++ [last] := by simpa using hlast
    simp [standingAt, hcommands, h.queued last rest hcommands]
  executing _ _ hprogress := by simp at hprogress
  completed number hnumber := by
    obtain ⟨-, -, -, -, hstored, -⟩ := answered_fields c r d e
    refine ⟨_, hstored, ?_⟩
    by_cases hempty : e.commands = []
    · simpa [standingAt, hempty, h.executing hempty] using hnumber
    · simp [standingAt, hempty, h.not_completed number] at hnumber

/-- A command at work that does not answer at once is in progress (R136). -/
theorem Working.pended {c : TakenCommand} {e : Engine} (h : Working c e) : EngineLaw { e with inProgress := some c } where
  commands := h.commands
  responses := by simpa [Engine.entriesUsed, h.reserved] using h.responses
  reserved := h.reserved
  queued := h.queued
  executing _ hempty hprogress := by
    obtain rfl := Option.some.inj hprogress
    exact h.executing hempty
  completed number hnumber := absurd hnumber (h.not_completed number)

/-- RESTART at work is still the last taken once it has emptied both queues (R144). -/
theorem Working.restarted {c : TakenCommand} {e : Engine} (h : Working c e) : Working c (e.restarted c.seq) where
  commands := Nat.zero_le _
  responses := by simp [Engine.restarted, Config.responseDepth]
  reserved := h.reserved
  queued _ _ hlast := by simp [Engine.restarted] at hlast
  executing _ := rfl

theorem Working.outcome {k : CommandKind} {c : TakenCommand} {e e' : Engine} (h : Working c e) (out : WorkOutcome k c e e') :
    EngineLaw e' := by
  cases out with
  | answered r d => exact h.answered r d
  | pended _ => exact h.pended
  | restarted d _ => exact h.restarted.answered .ok d

/-- Every move of the engine keeps the law. -/
theorem EngineMove.keeps_law {e e' : Engine} (move : EngineMove e e') (h : EngineLaw e) : EngineLaw e' := by
  cases move with
  | taken c room =>
    refine ⟨by simpa using room, h.responses, h.reserved, fun last rest hlast => ?_, fun _ hempty => by simp at hempty,
      fun number hnumber => by simp at hnumber⟩
    have hc : c = last := by simpa using (List.append_inj' hlast rfl).2
    rw [hc]
  | repeated r room =>
    have hresponses : e.entriesUsed + 1 ≤ Config.responseDepth := room
    refine ⟨h.commands, ?_, h.reserved, h.queued, h.executing, h.completed⟩
    simp only [Engine.entriesUsed, List.length_append, List.length_singleton] at hresponses ⊢
    omega
  | sent r rest head =>
    have hresponses := h.responses
    refine ⟨h.commands, ?_, h.reserved, h.queued, h.executing, h.completed⟩
    simp only [Engine.entriesUsed, head, List.length_cons] at hresponses ⊢
    omega
  | executed k c rest start out => exact (working_begun h start).outcome out
  | finished c r d working => exact (working_of_inProgress h working).answered r d
  | halted =>
    have hresponses := h.responses
    refine ⟨h.commands, ?_, rfl, h.queued, fun _ _ hprogress => by simp at hprogress, h.completed⟩
    exact Nat.le_trans (Nat.le_add_right _ _) hresponses
  | cleared => exact ⟨Nat.zero_le _, Nat.zero_le _, rfl, by simp, by simp, by simp⟩

theorem EngineRun.keeps_law {e e' : Engine} (run : EngineRun e e') (h : EngineLaw e) : EngineLaw e' := by
  induction run with
  | refl => exact h
  | tail _ move ih => exact move.keeps_law ih

/-- Settles O10: every step moves the engine in the ways of `EngineMove`, and each of them keeps the law. -/
theorem stepKeepsEngineQueues : Obligations.StepKeepsEngineQueues := by
  unfold Obligations.StepKeepsEngineQueues
  intro s t hs h
  exact step_keeps (fun _ _ hs => hs) (fun _ _ _ hs ht => engineOk_iff.mpr ((exec_engineRun ht).keeps_law (engineOk_iff.mp hs))) hs h

end Sys2Proof.Proofs.ManagementEngine
end

section
/-! PROOFS. What a posting makes of the notice list, case by case, and the number of a new record (R147, R149 to R151). -/

namespace Sys2Proof.Proofs.Notices

open Sys2Proof.Machine Sys2Proof.Laws Sys2Proof.Claims

/-! ## Postings -/

theorem isFor_eq_true {kind : NoticeKind} {subject : Byte} {r : NoticeRecord} :
    r.isFor kind subject = true ↔ r.kind = kind ∧ r.subject = subject := by
  simp [NoticeRecord.isFor]

theorem any_isFor_eq_false {kind : NoticeKind} {subject : Byte} {records : List NoticeRecord} :
    (records.any fun r => r.isFor kind subject) = false ↔ ∀ r ∈ records, ¬(r.kind = kind ∧ r.subject = subject) := by
  simp [NoticeRecord.isFor]

theorem hasLostMarker_eq_false {l : NoticeList} : l.hasLostMarker = false ↔ ∀ r ∈ l.records, r.kind ≠ .noticesLost := by
  simp [NoticeList.hasLostMarker]

theorem passes_of_bit {l : NoticeList} {kind : NoticeKind} (hlost : kind ≠ .noticesLost) (hrestarted : kind ≠ .restarted)
    (hbit : l.mask.getLsbD kind.code = false) : l.passes kind = false := by
  simp [NoticeList.passes, hlost, hrestarted, hbit]

/-- A posting lost while the lost marker is present is gathered into it (R151). -/
theorem lose_of_marker {l : NoticeList} (h : l.hasLostMarker = true) (kind : NoticeKind) :
    l.lose kind =
      { l with records := changeFirst (fun r => r.kind == .noticesLost) (NoticeRecord.gather (byteOf kind.code)) l.records } := if_pos h

/-- A posting lost while no lost marker is present creates it (R151). -/
theorem lose_of_noMarker {l : NoticeList} (h : l.hasLostMarker = false) (kind : NoticeKind) :
    l.lose kind = l.create .noticesLost 0 (byteOf kind.code) := if_neg (by simp [h])

/-! ## The number of a new record (R149) -/

theorem movedBy_eq_iterate (k : Nat) : ∀ b : Byte, movedBy k b = nextNumber^[k] b := by
  induction k with
  | zero => exact fun _ => rfl
  | succ k ih => exact fun b => ih (numberAfter b)

/-- With few records held, the number a new record is given is the one it takes by R149. -/
theorem takesNumber_freshNumber {records : List NoticeRecord} {counter : Byte} (hcounter : counter ≠ 0) (hfew : records.length < 255) :
    TakesNumber records counter (freshNumber records 255 counter) := by
  obtain ⟨passed, hnumber, hpassed⟩ := freshNumber_eq_movedBy records 255 hcounter
  obtain ⟨hfresh, hne⟩ := freshNumber_fresh hfew hcounter
  simp only [movedBy_eq_iterate] at hnumber hpassed
  exact ⟨passed, hnumber, hpassed, hfresh, hne⟩

/-- Settles O23: the cases of a posting in the order it is judged by, a record found in its place, and a new one numbered. -/
theorem postingFollowsItsCase : Obligations.PostingFollowsItsCase := by
  unfold Obligations.PostingFollowsItsCase
  intro kind subject detail s hlost
  refine ⟨fun hrestarted hbit => post_of_masked (passes_of_bit hlost hrestarted hbit) subject detail, fun hpasses => ⟨?_, ?_⟩⟩
  · intro before r after hrecords hkind hsubject hbefore
    have hr : r.isFor kind subject = true := isFor_eq_true.mpr ⟨hkind, hsubject⟩
    have hfirst : ∀ x ∈ before, x.isFor kind subject = false := fun x hx =>
      Bool.eq_false_iff.mpr fun hfor => hbefore x hx (isFor_eq_true.mp hfor)
    rw [post_of_coalesced hpasses (by simp [hrecords, hr]), hrecords, changeFirst_split hfirst hr]
    rfl
  · intro hnew hcounter hfew
    have hany := any_isFor_eq_false.mpr hnew
    have hnumber := takesNumber_freshNumber hcounter (records := s.notices.records) (by omega)
    refine ⟨fun hroom => ⟨_, hnumber, ?_⟩, fun hfull hnone => ⟨_, hnumber, ?_⟩, fun hfull before r after hrecords hkind hbefore => ?_⟩
    · rw [post_of_new hpasses hany hroom]
      rfl
    · rw [post_of_lost hpasses hany hfull, lose_of_noMarker (hasLostMarker_eq_false.mpr hnone)]
      rfl
    · have hmarker : s.notices.hasLostMarker = true := by simp [NoticeList.hasLostMarker, hrecords, hkind]
      have hfirst : ∀ x ∈ before, (x.kind == NoticeKind.noticesLost) = false := fun x hx => beq_false_of_ne (hbefore x hx)
      rw [post_of_lost hpasses hany hfull, lose_of_marker hmarker, hrecords, changeFirst_split hfirst (by simp [hkind])]
      rfl

end Sys2Proof.Proofs.Notices
end

section
/-! PROOFS. ACK NOTICE and SET NOTICE OPTIONS: the record an acknowledgement names and what its count makes of it (R156), and the bits of a kind
mask (R158). -/

namespace Sys2Proof.Proofs.Notices

open Sys2Proof.Machine Sys2Proof.Laws Sys2Proof.Claims Sys2Proof.Proofs.CellStore

/-! ## The record of a number -/

section OneRecord

variable {number : Byte} {before after : List NoticeRecord} {r : NoticeRecord}

theorem find_number_of_none {records : List NoticeRecord} (h : ∀ x ∈ records, x.number ≠ number) :
    (records.find? fun x => x.number == number) = none := by
  simpa [List.find?_eq_none] using h

theorem find_number (hr : r.number = number) (hbefore : ∀ x ∈ before, x.number ≠ number) :
    ((before ++ r :: after).find? fun x => x.number == number) = some r := by
  rw [List.find?_append, find_number_of_none hbefore]
  simp [hr]

theorem removeNumber_eq (hr : r.number = number) (hothers : ∀ x ∈ before ++ after, x.number ≠ number) :
    removeNumber number (before ++ r :: after) = before ++ after := by
  obtain ⟨hbefore, hafter⟩ := List.forall_mem_append.mp hothers
  have kept {records : List NoticeRecord} (h : ∀ x ∈ records, x.number ≠ number) :
      (records.filter fun x => x.number != number) = records := List.filter_eq_self.mpr fun x hx => bne_iff_ne.mpr (h x hx)
  rw [removeNumber, List.filter_append, List.filter_cons_of_neg (by simp [hr]), kept hbefore, kept hafter]

theorem rewaitNumber_eq (hr : r.number = number) (hbefore : ∀ x ∈ before, x.number ≠ number) :
    rewaitNumber number (before ++ r :: after) = before ++ { r with state := .waiting } :: after :=
  changeFirst_split (fun x hx => beq_false_of_ne (hbefore x hx)) (by simp [hr])

end OneRecord

/-! ## ACK NOTICE (R156) -/

section AckNotice

variable {c : TakenCommand} {s : State}

theorem workAckNotice_of_zero (h : byteAt c.operands 0 = 0 ∨ byteAt c.operands 1 = 0) : workAckNotice c s = complete c .range [] s := if_pos h

theorem workAckNotice_of_none (hoperands : ¬(byteAt c.operands 0 = 0 ∨ byteAt c.operands 1 = 0))
    (hnone : (s.notices.records.find? fun x => x.number == byteAt c.operands 0) = none) :
    workAckNotice c s = complete c .ok [2, 0] s := by
  simp only [workAckNotice, if_neg hoperands, hnone]

/-- An acknowledgement that names a record is judged by the record's count and the count acknowledged. -/
theorem workAckNotice_of_found {r : NoticeRecord} (hoperands : ¬(byteAt c.operands 0 = 0 ∨ byteAt c.operands 1 = 0))
    (hfound : (s.notices.records.find? fun x => x.number == byteAt c.operands 0) = some r) :
    workAckNotice c s =
      if r.count = byteAt c.operands 1 then
        complete c .ok [0, 0] (setRecords (removeNumber (byteAt c.operands 0) s.notices.records) s)
      else if (byteAt c.operands 1).toNat < r.count.toNat then
        complete c .ok [1, r.count] (setRecords (rewaitNumber (byteAt c.operands 0) s.notices.records) s)
      else complete c .ok [3, r.count] s := by
  simp only [workAckNotice, if_neg hoperands, hfound]

end AckNotice

/-- Settles O59: the record named is found by its number, and the three ways its count can stand to the one acknowledged exclude each
other. -/
theorem ackNoticeJudgesByCount : Obligations.AckNoticeJudgesByCount := by
  unfold Obligations.AckNoticeJudgesByCount
  intro c rest s hready
  have hexec : exec .ackNotice s = .next (workAckNotice c (beginCommand rest s)) := exec_of_ready hready rfl
  refine ⟨fun hzero => ?_, fun hnumber hcount => ?_⟩
  · rw [workAckNotice_of_zero hzero] at hexec
    exact answers_complete hexec rfl
  have hoperands : ¬(byteAt c.operands 0 = 0 ∨ byteAt c.operands 1 = 0) := fun h => h.elim hnumber hcount
  refine ⟨fun hnone => ?_, fun before r after hrecords hr hothers => ?_⟩
  · rw [workAckNotice_of_none (s := beginCommand rest s) hoperands (find_number_of_none hnone)] at hexec
    exact answers_complete hexec rfl
  have hbefore : ∀ x ∈ before, x.number ≠ byteAt c.operands 0 := (List.forall_mem_append.mp hothers).1
  have hbegun : (beginCommand rest s).notices.records = before ++ r :: after := hrecords
  have hfound := find_number (after := after) hr hbefore
  rw [← hbegun] at hfound
  rw [workAckNotice_of_found hoperands hfound, hbegun, removeNumber_eq hr hothers, rewaitNumber_eq hr hbefore] at hexec
  refine ⟨fun hequal => ?_, fun hless => ?_, fun hmore => ?_⟩
  · rw [if_pos hequal] at hexec
    exact answers_complete hexec rfl
  · have hne : r.count ≠ byteAt c.operands 1 := fun h => absurd hless (by rw [h]; exact Nat.lt_irrefl _)
    rw [if_neg hne, if_pos hless] at hexec
    exact answers_complete hexec rfl
  · have hne : r.count ≠ byteAt c.operands 1 := fun h => absurd hmore (by rw [h]; exact Nat.lt_irrefl _)
    rw [if_neg hne, if_neg (Nat.lt_asymm hmore)] at hexec
    exact answers_complete hexec rfl

/-! ## Kind masks (R158) -/

/-- A two-byte operand is its two bytes side by side (R178). -/
theorem ofNat_wordAt (operands : List Byte) (i : Nat) :
    BitVec.ofNat 16 (wordAt operands i) = byteAt operands i ++ byteAt operands (i + 1) := by
  apply BitVec.eq_of_toNat_eq
  have hlow := (byteAt operands (i + 1)).isLt
  have hhigh := (byteAt operands i).isLt
  rw [BitVec.toNat_append, ← Nat.shiftLeft_add_eq_or_of_lt hlow, Nat.shiftLeft_eq, wordAt, BitVec.toNat_ofNat]
  omega

/-- A two-byte value is sent as its upper and its lower eight bits (R179). -/
theorem bytes16_toNat (w : BitVec 16) : bytes16 w.toNat = [w.extractLsb' 8 8, w.extractLsb' 0 8] := by
  have hhigh : BitVec.ofNat 8 (w.toNat / 256) = w.extractLsb' 8 8 := by simp [BitVec.extractLsb', Nat.shiftRight_eq_div_pow]
  have hlow : BitVec.ofNat 8 w.toNat = w.extractLsb' 0 8 := by simp [BitVec.extractLsb']
  rw [bytes16, hhigh, hlow]

theorem getLsbD_unnamedBits : ∀ k : Fin 16, unnamedBits.getLsbD k = (k.val == 0 || (11 ≤ k.val && k.val ≤ 14)) := by
  decide

theorem getLsbD_heldBits : ∀ k : Fin 16, heldBits.getLsbD k = (k.val == 1 || k.val == 15) := by
  decide

/-- A mask with the held bits at 1. -/
theorem or_heldBits_eq {given mask : BitVec 16} (h : ∀ k : Nat, k < 16 → mask.getLsbD k = (given.getLsbD k || k == 1 || k == 15)) :
    given ||| heldBits = mask := by
  apply BitVec.eq_of_getLsbD_eq
  intro k hk
  rw [BitVec.getLsbD_or, getLsbD_heldBits ⟨k, hk⟩, h k hk, Bool.or_assoc]

/-- A mask names kinds alone when bits 0 and 11 to 14 are clear. -/
theorem and_unnamedBits_eq_zero {given : BitVec 16} :
    given &&& unnamedBits = 0 ↔ given.getLsbD 0 = false ∧ ∀ k : Nat, 11 ≤ k → k ≤ 14 → given.getLsbD k = false := by
  have hbit (k : Nat) (hk : k < 16) :
      (given &&& unnamedBits).getLsbD k = (given.getLsbD k && (k == 0 || (11 ≤ k && k ≤ 14))) := by
    rw [BitVec.getLsbD_and, getLsbD_unnamedBits ⟨k, hk⟩]
  constructor
  · intro h
    simp only [h] at hbit
    refine ⟨?_, fun k hlow hhigh => ?_⟩
    · simpa using (hbit 0 (by decide)).symm
    · simpa [hlow, hhigh] using (hbit k (by omega)).symm
  · rintro ⟨hzero, hunnamed⟩
    apply BitVec.eq_of_getLsbD_eq
    intro k hk
    rw [hbit k hk]
    by_cases hfirst : k = 0
    · rw [hfirst, hzero]
      rfl
    · by_cases hrange : 11 ≤ k ∧ k ≤ 14
      · obtain ⟨hlow, hhigh⟩ := hrange
        simp [hunnamed k hlow hhigh]
      · simp [hfirst, hrange, ← Bool.decide_and]

/-! ## SET NOTICE OPTIONS (R158) -/

section SetNoticeOptions

variable {c : TakenCommand} {s : State} {given mask : BitVec 16}

theorem workSetNoticeOptions_of_bad (hgiven : given = byteAt c.operands 0 ++ byteAt c.operands 1)
    (h : byteAt c.operands 2 = 0 ∨ given &&& unnamedBits ≠ 0) : workSetNoticeOptions c s = complete c .range [] s := by
  rw [hgiven, ← ofNat_wordAt] at h
  exact if_pos h

theorem workSetNoticeOptions_of_named (hgiven : given = byteAt c.operands 0 ++ byteAt c.operands 1) (hmask : given ||| heldBits = mask)
    (hinterval : byteAt c.operands 2 ≠ 0) (hnamed : given &&& unnamedBits = 0) :
    workSetNoticeOptions c s =
      complete c .ok [mask.extractLsb' 8 8, mask.extractLsb' 0 8, byteAt c.operands 2]
        { s with notices := { s.notices with mask := mask, interval := byteAt c.operands 2 } } := by
  have hword : BitVec.ofNat 16 (wordAt c.operands 0) = given := (ofNat_wordAt c.operands 0).trans hgiven.symm
  have hgood : ¬(byteAt c.operands 2 = 0 ∨ given &&& unnamedBits ≠ 0) := fun h => h.elim hinterval fun hne => hne hnamed
  simp only [workSetNoticeOptions, hword, if_neg hgood, hmask, bytes16_toNat, List.cons_append, List.nil_append]

end SetNoticeOptions

/-- Settles O60: the mask given is read as its two bytes, and its bits decide. -/
theorem setNoticeOptionsHoldsTwoBits : Obligations.SetNoticeOptionsHoldsTwoBits := by
  unfold Obligations.SetNoticeOptionsHoldsTwoBits
  intro c rest s given mask hready hgiven hmask
  have hexec : exec .setNoticeOptions s = .next (workSetNoticeOptions c (beginCommand rest s)) := exec_of_ready hready rfl
  refine ⟨fun hbad => ?_, fun hinterval hzero hunnamed => ?_⟩
  · have hrange : byteAt c.operands 2 = 0 ∨ given &&& unnamedBits ≠ 0 := by
      refine hbad.imp_right fun hset hnamed => ?_
      obtain ⟨hzero, hunnamed⟩ := and_unnamedBits_eq_zero.mp hnamed
      obtain hbit | ⟨k, hlow, hhigh, hbit⟩ := hset
      · cases hzero.symm.trans hbit
      · cases (hunnamed k hlow hhigh).symm.trans hbit
    rw [workSetNoticeOptions_of_bad hgiven hrange] at hexec
    exact answers_complete hexec rfl
  · have hnamed := and_unnamedBits_eq_zero.mpr ⟨hzero, hunnamed⟩
    rw [workSetNoticeOptions_of_named hgiven (or_heldBits_eq hmask) hinterval hnamed] at hexec
    exact answers_complete hexec rfl

end Sys2Proof.Proofs.Notices
end

section
/-! PROOFS. The law of the notice list, the one list of what an operation can do to the list, and that each of these keeps the law (R148 to R151,
R154 to R156, R158, R161). -/

namespace Sys2Proof.Proofs.Notices

open Sys2Proof.Machine Sys2Proof.Safety Sys2Proof.Laws

/-! ## The law on the list alone -/

/-- The law of the notice list, read from the list alone (R148, R149, R158). -/
structure NoticeLaw (l : NoticeList) : Prop where
  pairs : (l.records.map fun r => (r.kind, r.subject)).Nodup
  numbers : (l.records.map NoticeRecord.number).Nodup
  ordinary : l.ordinary ≤ Config.noticeDepth
  records : ∀ r ∈ l.records, r.number ≠ 0 ∧ r.count ≠ 0 ∧ (r.kind = .noticesLost → r.subject = 0)
  counter : l.counter ≠ 0
  interval : l.interval ≠ 0
  mask : l.mask &&& 0xF803#16 = 0x8002#16

theorem noticesOk_iff {s : State} : NoticesOk s ↔ NoticeLaw s.notices :=
  ⟨fun ⟨pairs, numbers, ordinary, records, counter, interval, mask⟩ => ⟨pairs, numbers, ordinary, records, counter, interval, mask⟩,
    fun h => ⟨h.pairs, h.numbers, h.ordinary, h.records, h.counter, h.interval, h.mask⟩⟩

/-- What a record keeps as long as it is held: its number, kind and subject (R148). -/
def identity (r : NoticeRecord) : Byte × NoticeKind × Byte := (r.number, r.kind, r.subject)

theorem ordinary_eq_countP (l : NoticeList) : l.ordinary = (l.records.map identity).countP fun i => i.2.1 != .noticesLost := by
  rw [List.countP_map, NoticeList.ordinary, ← List.countP_eq_length_filter]
  rfl

/-- Records changed in detail, state and count alone, each count still from 1 on. -/
theorem NoticeLaw.of_identities {l : NoticeList} (h : NoticeLaw l) {records : List NoticeRecord}
    (same : records.map identity = l.records.map identity) (counted : ∀ r ∈ records, r.count ≠ 0) :
    NoticeLaw { l with records := records } where
  pairs := by
    have hpairs := h.pairs
    rw [show (fun r : NoticeRecord => (r.kind, r.subject)) = Prod.snd ∘ identity from rfl, ← List.map_map] at hpairs ⊢
    rwa [same]
  numbers := by
    have hnumbers := h.numbers
    rw [show NoticeRecord.number = Prod.fst ∘ identity from rfl, ← List.map_map] at hnumbers ⊢
    rwa [same]
  ordinary := by
    have hordinary := h.ordinary
    rw [ordinary_eq_countP] at hordinary ⊢
    rwa [same]
  records r hr := by
    have hmem : identity r ∈ l.records.map identity := same ▸ List.mem_map_of_mem hr
    obtain ⟨old, hold, hidentity⟩ := List.mem_map.mp hmem
    simp only [identity, Prod.mk.injEq] at hidentity
    obtain ⟨hnumber, hkind, hsubject⟩ := hidentity
    obtain ⟨hne, -, hmarker⟩ := h.records old hold
    exact ⟨hnumber ▸ hne, counted r hr, fun hlost => hsubject ▸ hmarker (hkind.trans hlost)⟩
  counter := h.counter
  interval := h.interval
  mask := h.mask

/-- Some of the records removed. -/
theorem NoticeLaw.of_sublist {l : NoticeList} (h : NoticeLaw l) {records : List NoticeRecord} (kept : records.Sublist l.records) :
    NoticeLaw { l with records := records } where
  pairs := (kept.map _).nodup h.pairs
  numbers := (kept.map _).nodup h.numbers
  ordinary := (kept.filter _).length_le.trans h.ordinary
  records r hr := h.records r (kept.subset hr)
  counter := h.counter
  interval := h.interval
  mask := h.mask

/-! ## A new record -/

/-- One record at most is the lost marker (R148). -/
theorem NoticeLaw.markers_le_one {l : NoticeList} (h : NoticeLaw l) : (l.records.countP fun r => r.kind == .noticesLost) ≤ 1 := by
  have honce := List.nodup_iff_count_le_one.mp h.pairs (NoticeKind.noticesLost, 0)
  rw [List.count, List.countP_map] at honce
  refine le_trans (List.countP_mono_left fun r hr hkind => ?_) honce
  obtain ⟨-, -, hsubject⟩ := h.records r hr
  have hlost : r.kind = .noticesLost := eq_of_beq hkind
  simp [hlost, hsubject hlost]

/-- The list holds 8 ordinary records and one lost marker at most (R148). -/
theorem NoticeLaw.length_le {l : NoticeList} (h : NoticeLaw l) : l.records.length ≤ Config.noticeDepth + 1 := by
  have hmarkers := h.markers_le_one
  rw [List.countP_eq_length_filter] at hmarkers
  rw [List.length_eq_length_filter_add fun r : NoticeRecord => r.kind == .noticesLost, Nat.add_comm]
  exact Nat.add_le_add h.ordinary hmarkers

/-- A new record for a pair that none stands for keeps the law, where there is room for it. -/
theorem NoticeLaw.create {l : NoticeList} (h : NoticeLaw l) {kind : NoticeKind} {subject : Byte} (detail : Byte)
    (new : ∀ r ∈ l.records, ¬(r.kind = kind ∧ r.subject = subject)) (room : kind = .noticesLost ∨ l.ordinary < Config.noticeDepth)
    (marker : kind = .noticesLost → subject = 0) : NoticeLaw (l.create kind subject detail) := by
  have hfew : l.records.length < 255 := lt_of_le_of_lt h.length_le (by decide)
  obtain ⟨hfresh, hne⟩ := freshNumber_fresh hfew h.counter
  exact
    { pairs := by
        simp only [NoticeList.create, List.map_append, List.map_singleton]
        refine List.nodup_append.mpr ⟨h.pairs, by simp, ?_⟩
        simpa using new
      numbers := by
        simp only [NoticeList.create, List.map_append, List.map_singleton]
        refine List.nodup_append.mpr ⟨h.numbers, by simp, ?_⟩
        simpa using hfresh
      ordinary := by
        have hordinary := h.ordinary
        simp only [NoticeList.create, NoticeList.ordinary, List.filter_append, List.length_append] at hordinary room ⊢
        obtain hlost | hroom := room
        · simpa [hlost] using hordinary
        · have hone := List.length_filter_le (fun r : NoticeRecord => r.kind != .noticesLost)
            [{ number := freshNumber l.records 255 l.counter, kind, subject, count := 1, detail, state := .waiting }]
          simp only [List.length_singleton] at hone
          omega
      records := by
        intro r hr
        obtain hold | rfl := (List.mem_append.mp hr).imp_right List.mem_singleton.mp
        · exact h.records r hold
        · exact ⟨hne, (by decide : (1 : Byte) ≠ 0), marker⟩
      counter := numberAfter_ne_zero _
      interval := h.interval
      mask := h.mask }

/-! ## Records changed in their place -/

theorem forall_mem_changeFirst {P : NoticeRecord → Prop} {test : NoticeRecord → Bool} {f : NoticeRecord → NoticeRecord}
    (kept : ∀ r, P r → P (f r)) {records : List NoticeRecord} (h : ∀ r ∈ records, P r) : ∀ r ∈ changeFirst test f records, P r := by
  induction records with
  | nil => exact h
  | cons r rs ih =>
    obtain ⟨hr, hrs⟩ := List.forall_mem_cons.mp h
    unfold changeFirst
    split
    · exact List.forall_mem_cons.mpr ⟨kept r hr, hrs⟩
    · exact List.forall_mem_cons.mpr ⟨hr, ih hrs⟩

/-- The notice offered is a record of the list, and is SENT in its place (R153, R154). -/
theorem offerNotice_eq_some {interval : Byte} {records offered : List NoticeRecord} {r : NoticeRecord}
    (h : offerNotice interval records = some (r, offered)) :
    ∃ before after, records = before ++ r :: after ∧ offered = before ++ { r with state := .sent 0 } :: after := by
  induction records generalizing offered with
  | nil => cases h
  | cons x xs ih =>
    unfold offerNotice at h
    split at h
    · cases h
      exact ⟨[], xs, rfl, rfl⟩
    · split at h
      · next o rest hrest =>
        cases h
        obtain ⟨before, after, rfl, rfl⟩ := ih hrest
        exact ⟨x :: before, after, rfl, rfl⟩
      · cases h

theorem saturate8_ne_zero {b : Byte} : saturate8 b ≠ 0 := by
  unfold saturate8
  split
  · decide
  · bv_omega

theorem identity_tick (r : NoticeRecord) : identity r.tick = identity r := by
  unfold NoticeRecord.tick
  split <;> rfl

theorem count_tick (r : NoticeRecord) : r.tick.count = r.count := by
  unfold NoticeRecord.tick
  split <;> rfl

theorem NoticeLaw.counted {l : NoticeList} (h : NoticeLaw l) : ∀ r ∈ l.records, r.count ≠ 0 := fun r hr =>
  have ⟨_, hcount, _⟩ := h.records r hr
  hcount

/-- The first record that satisfies a test changed in detail, state and count alone. -/
theorem NoticeLaw.changeFirst {l : NoticeList} (h : NoticeLaw l) (test : NoticeRecord → Bool) {f : NoticeRecord → NoticeRecord}
    (same : ∀ r, identity (f r) = identity r) (counted : ∀ r, r.count ≠ 0 → (f r).count ≠ 0) :
    NoticeLaw { l with records := changeFirst test f l.records } :=
  h.of_identities (changeFirst_map same l.records) (forall_mem_changeFirst counted h.counted)

/-! ## Moves of the list -/

/-- Every way one operation can move the notice list (R150, R151, R154 to R156, R158, R161, R16). -/
inductive NoticeMove (l : NoticeList) : NoticeList → Prop
  | gathered (test : NoticeRecord → Bool) (detail : Byte) :
      NoticeMove l { l with records := changeFirst test (NoticeRecord.gather detail) l.records }
  | created (kind : NoticeKind) (subject detail : Byte) (ordinary : kind ≠ .noticesLost)
      (new : ∀ r ∈ l.records, ¬(r.kind = kind ∧ r.subject = subject)) (room : l.ordinary < Config.noticeDepth) :
      NoticeMove l (l.create kind subject detail)
  | marked (detail : Byte) (new : ∀ r ∈ l.records, r.kind ≠ .noticesLost) : NoticeMove l (l.create .noticesLost 0 detail)
  | sent (r : NoticeRecord) (records : List NoticeRecord) (offer : offerNotice l.interval l.records = some (r, records)) :
      NoticeMove l { l with records := records }
  | ticked : NoticeMove l { l with records := l.records.map NoticeRecord.tick }
  | acknowledged (number : Byte) : NoticeMove l { l with records := removeNumber number l.records }
  | rewaited (number : Byte) : NoticeMove l { l with records := rewaitNumber number l.records }
  | options (mask : BitVec 16) (interval : Byte) (named : mask &&& unnamedBits = 0) (nonzero : interval ≠ 0) :
      NoticeMove l { l with mask := mask ||| heldBits, interval := interval }
  | restarted : NoticeMove l l.restarted
  | reset (cause : ResetCause) : NoticeMove l (.reset cause)

theorem noticeLaw_reset (cause : ResetCause) : NoticeLaw (.reset cause) := by
  constructor <;> cases cause <;> decide

/-- A mask that names kinds alone is sound with the held bits at 1 (R158). -/
theorem heldMask_eq {mask : BitVec 16} (named : mask &&& unnamedBits = 0) : (mask ||| heldBits) &&& 0xF803#16 = 0x8002#16 := by
  have hbits : 0xF803#16 = unnamedBits ||| heldBits := by decide
  have happart : (mask ||| heldBits) &&& (unnamedBits ||| heldBits) = mask &&& unnamedBits ||| heldBits := by
    ext i
    simp only [BitVec.getElem_and, BitVec.getElem_or, Bool.or_and_distrib_right]
  rw [hbits, happart, named]
  rfl

/-- Every move of the notice list keeps the law. -/
theorem NoticeMove.keeps_law {l l' : NoticeList} (move : NoticeMove l l') (h : NoticeLaw l) : NoticeLaw l' := by
  cases move with
  | gathered test detail => exact h.changeFirst test (fun _ => rfl) fun _ _ => saturate8_ne_zero
  | created kind subject detail ordinary new room => exact h.create detail new (.inr room) fun hlost => absurd hlost ordinary
  | marked detail new => exact h.create detail (fun r hr ⟨hkind, _⟩ => new r hr hkind) (.inl rfl) fun _ => rfl
  | sent r records offer =>
    obtain ⟨before, after, hrecords, rfl⟩ := offerNotice_eq_some offer
    have hcounted := h.counted
    rw [hrecords, List.forall_mem_append, List.forall_mem_cons] at hcounted
    obtain ⟨hbefore, hr, hafter⟩ := hcounted
    exact h.of_identities (by simp [hrecords, identity])
      (List.forall_mem_append.mpr ⟨hbefore, List.forall_mem_cons.mpr ⟨hr, hafter⟩⟩)
  | ticked =>
    refine h.of_identities ?_ (List.forall_mem_map.mpr fun r hr => ?_)
    · rw [List.map_map]
      exact List.map_congr_left fun r _ => identity_tick r
    · rw [count_tick]
      exact h.counted r hr
  | acknowledged number => exact h.of_sublist List.filter_sublist
  | rewaited number => exact h.changeFirst _ (fun _ => rfl) fun _ hcount => hcount
  | options mask interval named nonzero => exact { h with interval := nonzero, mask := heldMask_eq named }
  | restarted =>
    have cleared : NoticeLaw { l with records := [] } := h.of_sublist (List.nil_sublist _)
    exact cleared.create 3 (by simp) (.inr (Nat.zero_lt_succ 7)) fun hlost => nomatch hlost
  | reset cause => exact noticeLaw_reset cause

end Sys2Proof.Proofs.Notices
end

section
/-! PROOFS. Every event moves the notice list in the ways of `NoticeMove` alone, operation by operation (R147, R152). -/

namespace Sys2Proof.Proofs.Notices

open Sys2Proof.Machine Sys2Proof.Laws Relation

/-! ## Runs of moves -/

/-- The moves of one step, which can be several: most steps make more than one posting (R147). -/
abbrev NoticeRun : NoticeList → NoticeList → Prop := ReflTransGen NoticeMove

theorem NoticeRun.of_eq {l l' : NoticeList} (h : l' = l) : NoticeRun l l' := h ▸ .refl

theorem NoticeMove.run {l l' : NoticeList} (h : NoticeMove l l') : NoticeRun l l' := .single h

theorem NoticeRun.keeps_law {l l' : NoticeList} (run : NoticeRun l l') (h : NoticeLaw l) : NoticeLaw l' := by
  induction run with
  | refl => exact h
  | tail _ move ih => exact move.keeps_law ih

/-- An event that moves the notice list in the ways of `NoticeMove` alone. -/
def Notifies (event : State → State) : Prop := ∀ s, NoticeRun s.notices (event s).notices

/-- A run from a state whose notice list is the same. -/
theorem Notifies.of_notices {event : State → State} (h : Notifies event) {s t : State} (ht : t.notices = s.notices) :
    NoticeRun s.notices (event t).notices := ht ▸ h t

/-- A run on from where another has come. -/
theorem Notifies.after {event : State → State} (h : Notifies event) {s t : State} (ht : NoticeRun s.notices t.notices) :
    NoticeRun s.notices (event t).notices := ht.trans (h t)

theorem notifies_of_leaves {event : State → State} (h : ∀ s, (event s).notices = s.notices) : Notifies event := fun s => .of_eq (h s)

theorem notifies_id : Notifies id := fun _ => .refl

theorem notifies_postBeside {turn : Turn} {posting work : State → State} (hp : Notifies posting) (hw : Notifies work) :
    Notifies (postBeside turn posting work) := fun s =>
  postBeside_cases (motive := fun t => NoticeRun s.notices t.notices) (hw.after (hp s)) (hp.after (hw s))

/-! ## Postings -/

/-- A posting is none, a record gathered into, a new record, or a loss gathered into the lost marker or a new marker (R147, R150, R151). -/
theorem notifies_post {kind : NoticeKind} (ordinary : kind ≠ .noticesLost) (subject detail : Byte) : Notifies (post kind subject detail) := by
  intro s
  cases hpasses : s.notices.passes kind with
  | false => exact .of_eq (by rw [post_of_masked hpasses])
  | true =>
    cases hany : s.notices.records.any (NoticeRecord.isFor kind subject) with
    | true =>
      rw [post_of_coalesced hpasses hany]
      exact (NoticeMove.gathered _ detail).run
    | false =>
      by_cases hroom : s.notices.ordinary < Config.noticeDepth
      · rw [post_of_new hpasses hany hroom]
        exact (NoticeMove.created kind subject detail ordinary (any_isFor_eq_false.mp hany) hroom).run
      · rw [post_of_lost hpasses hany (Nat.not_lt.mp hroom)]
        cases hmarker : s.notices.hasLostMarker with
        | true =>
          rw [lose_of_marker hmarker]
          exact (NoticeMove.gathered _ _).run
        | false =>
          rw [lose_of_noMarker hmarker]
          exact (NoticeMove.marked _ (hasLostMarker_eq_false.mp hmarker)).run

theorem notifies_postStateChange (n : Trib) (before after : PortState) : Notifies (postStateChange n before after) := by
  intro s
  unfold postStateChange
  split
  · exact .refl
  · exact notifies_post (by decide) _ _ s

theorem notifies_postLocked (l : Link) (before after : Ports) : Notifies (postLocked l before after) := by
  cases l with
  | trunk => exact notifies_post (by decide) 0 2
  | tributary n => exact notifies_postStateChange n _ _

theorem notifies_postSurveyDone (before : State) : Notifies (postSurveyDone before) := by
  intro s
  unfold postSurveyDone
  split
  · exact notifies_post (by decide) 0 0 s
  · exact .refl

/-! ## Offers and cuts -/

theorem notifies_offerUp (n : Trib) (c : Cell) : Notifies (offerUp n c) := by
  intro s
  unfold offerUp
  split
  · exact .of_eq (by simp)
  · exact (notifies_post (by decide) _ _).of_notices (by simp)
  · exact (notifies_post (by decide) _ _).of_notices (by simp)

theorem notifies_offerDown (n : Trib) (c : Cell) : Notifies (offerDown n c) := by
  intro s
  unfold offerDown
  split
  · exact .of_eq (by simp)
  · exact (notifies_post (by decide) _ _).of_notices (by simp)
  · exact (notifies_post (by decide) _ _).of_notices (by simp)

theorem notifies_cutOpen (n : Trib) (cause : CutCause) : Notifies (cutOpen n cause) := fun s =>
  (notifies_post (by decide) (tribByte n) cause.detail).of_notices (t := countUp n (.addMessagesCut 1) (cutOpenQueue n s)) (by simp)

theorem notifies_cutAll (n : Trib) (cause : CutCause) : Notifies (cutAll n cause) := by
  intro s
  unfold cutAll
  dsimp only
  split
  · exact .of_eq (by simp)
  · exact (notifies_post (by decide) _ _).of_notices (by simp)

/-! ## Arrivals from a tributary -/

theorem notifies_startMessage (n : Trib) (c : Cell) : Notifies (startMessage n c) := by
  intro s
  simp only [startMessage, setIngress_leaves]
  exact notifies_offerUp n _ s

theorem notifies_giveUpAt (n : Trib) (cause : CutCause) (c : Cell) : Notifies (giveUpAt n cause c) := by
  intro s
  simp only [giveUpAt, setIngress_leaves]
  exact notifies_cutOpen n cause s

theorem notifies_continueMessage (n : Trib) (tag : Tag) (channel : Channel) (limit admitted : Nat) (next : Index) (c : Cell) :
    Notifies (continueMessage n tag channel limit admitted next c) := by
  intro s
  unfold continueMessage
  split
  · exact notifies_giveUpAt n _ c s
  · split
    · exact notifies_giveUpAt n _ c s
    · split
      · simp only [setIngress_leaves]
        exact notifies_offerUp n _ s
      · exact (notifies_giveUpAt n _ c).after (notifies_offerUp n _ s)

theorem notifies_malformedUp (n : Trib) : Notifies (malformedUp n) := by
  intro s
  unfold malformedUp
  dsimp only
  split
  · simp only [setIngress_leaves]
    exact (notifies_cutOpen n _).of_notices (by simp)
  · exact .of_eq (by simp)
  · exact .of_eq (by simp)

theorem notifies_ingressIdle (n : Trib) (c : Cell) : Notifies (ingressIdle n c) := by
  intro s
  unfold ingressIdle
  split
  · exact notifies_startMessage n c s
  · exact notifies_startMessage n c s
  · exact .of_eq (by simp)
  · exact .of_eq (by simp)

theorem notifies_ingressOpen (n : Trib) (tag : Tag) (channel : Channel) (limit admitted : Nat) (next : Index) (c : Cell) :
    Notifies (ingressOpen n tag channel limit admitted next c) := by
  intro s
  unfold ingressOpen
  split
  · exact (notifies_startMessage n c).after (notifies_cutOpen n _ s)
  · exact (notifies_startMessage n c).after (notifies_cutOpen n _ s)
  · exact notifies_continueMessage n tag channel limit admitted next c s
  · exact notifies_continueMessage n tag channel limit admitted next c s

theorem notifies_ingressDiscarding (n : Trib) (c : Cell) : Notifies (ingressDiscarding n c) := by
  intro s
  unfold ingressDiscarding
  split
  · exact notifies_startMessage n c s
  · exact notifies_startMessage n c s
  · exact .refl
  · exact .of_eq (by simp)

theorem notifies_tribArrival (n : Trib) (c : Cell) : Notifies (tribArrival n c) := by
  intro s
  unfold tribArrival
  split
  · exact .of_eq (by simp)
  · split
    · exact notifies_malformedUp n s
    · split
      · exact notifies_ingressIdle n c s
      · exact notifies_ingressOpen n _ _ _ _ _ c s
      · exact notifies_ingressDiscarding n c s

/-! ## Arrivals from the trunk -/

theorem notifies_writeConversion (n : Trib) (channel : Channel) (next : Index) : Notifies (writeConversion n channel next) := by
  intro s
  unfold writeConversion
  split
  · split
    · simp only [countDown_leaves]
      exact notifies_offerDown n _ s
    · exact notifies_offerDown n _ s
  · exact .of_eq (by simp)

theorem notifies_closeGivenUp (tag : Tag) : Notifies (closeGivenUp tag) := by
  intro s
  unfold closeGivenUp
  split
  · simp only [setCurrent_leaves]
    exact notifies_writeConversion _ _ _ s
  · exact .of_eq (by simp)
  · exact .of_eq (by simp)
  · exact .refl
  · exact .refl

/-- A FIRST or SOLE from the trunk reaches the notice list where its offer is refused (R21, R112). -/
theorem notifies_startDown (tag : Tag) (c : Cell) : Notifies (startDown tag c) := by
  intro s
  unfold startDown
  dsimp only
  generalize s.channels.get tag.toNat = e
  have offered {t : State} (ht : t.notices = (offerDown e.trib { c with tag := e.channel.setWidth 10 } s).notices) :
      NoticeRun s.notices t.notices := ht ▸ notifies_offerDown e.trib _ s
  split
  · split <;> exact .of_eq (by simp)
  · split
    · split <;> exact .of_eq (by simp)
    · split
      · split
        · exact offered (by simp)
        · exact offered rfl
      · split
        · exact offered (by simp)
        · exact offered rfl

theorem notifies_restartDown (tag : Tag) (c : Cell) : Notifies (restartDown tag c) := by
  intro s
  unfold restartDown
  dsimp only
  refine (notifies_startDown tag c).of_notices ?_
  split <;> simp

theorem notifies_continueDown {between : State → State} (hb : Notifies between) (tag : Tag) (n : Trib) (channel : Channel) (next : Index)
    (c : Cell) : Notifies (continueDown between tag n channel next c) := by
  intro s
  have offered {t : State} (ht : t.notices = (offerDown n { c with tag := channel.setWidth 10 } s).notices) :
      NoticeRun s.notices t.notices := ht ▸ notifies_offerDown n _ s
  unfold continueDown
  dsimp only
  split
  · split
    · exact (notifies_closeGivenUp tag).of_notices (by simp)
    · exact .of_eq (by simp)
  · split
    · exact offered (by simp)
    · split
      · exact (notifies_closeGivenUp tag).after (hb.after (offered (by simp)))
      · exact offered (by simp)

theorem notifies_channelArrival {between : State → State} (hb : Notifies between) (c : Cell) : Notifies (channelArrival between c) := by
  intro s
  unfold channelArrival
  split
  case h_1 | h_2 => exact notifies_startDown _ c s
  case h_3 | h_4 => exact .of_eq (by simp)
  case h_5 | h_6 => exact notifies_continueDown hb _ _ _ _ c s
  case h_7 | h_8 | h_11 | h_12 | h_15 | h_16 => exact notifies_restartDown _ c s
  case h_9 | h_13 => exact .refl
  case h_10 | h_14 => exact notifies_closeGivenUp _ s

/-- An arrival on tag 1022 reaches the notice list where its command overruns the queue (R130). -/
theorem notifies_managementArrival (c : Cell) : Notifies (managementArrival c) := by
  intro s
  unfold managementArrival
  split
  · exact .of_eq (by simp)
  · split
    · exact .of_eq (by simp)
    · unfold takeCommand
      split
      · exact .of_eq (by simp)
      · exact (notifies_post (by decide) _ _).of_notices (by simp)

theorem notifies_trunkArrival {between : State → State} (hb : Notifies between) (c : Cell) : Notifies (trunkArrival between c) := by
  intro s
  unfold trunkArrival
  split
  · split
    · exact notifies_channelArrival hb c s
    · exact .of_eq (by simp)
  · split
    · exact notifies_managementArrival c s
    · split
      · exact .refl
      · exact .of_eq (by simp)

theorem notifies_handOn {between : State → State} (hb : Notifies between) (l : Link) (c : Cell) : Notifies (handOn between l c) := by
  intro s
  unfold handOn
  split
  · exact .refl
  · cases l with
    | trunk => exact notifies_trunkArrival hb c s
    | tributary n => exact notifies_tribArrival n c s

/-! ## Header tests and signals -/

@[simp] theorem countBadHeader_notices (l : Link) (s : State) : (countBadHeader l s).notices = s.notices := by
  cases l <;> rfl

theorem notifies_endIngress (n : Trib) : Notifies (endIngress n) := by
  intro s
  unfold endIngress
  split
  · simp only [setIngress_leaves]
    exact notifies_cutOpen n _ s
  · exact .refl
  · exact .of_eq (by simp)

/-- A port told of a lock loss makes two postings at most, its state's and the cut's, in either order (R38, R147). -/
theorem notifies_portLockLost (turn : Turn) (n : Trib) : Notifies (portLockLost turn n) := by
  intro s
  have closed : Notifies fun u => closeDownlink n (endIngress n u) := fun u => by
    simp only [closeDownlink_leaves]
    exact notifies_endIngress n u
  unfold portLockLost
  dsimp only
  split
  · exact (notifies_postBeside (notifies_postStateChange n _ _) closed).of_notices (by simp)
  · exact .of_eq (by simp)

theorem notifies_reportLockLost (turn : Turn) (l : Link) : Notifies (reportLockLost turn l) := by
  intro s
  cases l with
  | trunk =>
    simp only [reportLockLost, reportLockLoss_leaves, discardAll_leaves]
    exact (notifies_post (by decide) 0 0).of_notices (by simp)
  | tributary n => exact notifies_portLockLost turn n s

theorem notifies_seekTest (l : Link) (bytes : List Byte) : Notifies (seekTest l bytes) := by
  refine notifies_of_leaves fun s => ?_
  unfold seekTest
  dsimp only
  split
  · split <;> simp
  · rfl

theorem notifies_enterLocked (turn : Turn) (l : Link) (bytes : List Byte) : Notifies (enterLocked turn l bytes) := fun s =>
  (notifies_postBeside (notifies_postLocked l _ _) (notifies_handOn notifies_id l (decodeCell bytes))).of_notices (by simp)

theorem notifies_confirmTest (turn : Turn) (l : Link) (bytes : List Byte) : Notifies (confirmTest turn l bytes) := by
  intro s
  unfold confirmTest
  dsimp only
  split
  · split
    · split
      · exact .of_eq (by simp)
      · exact notifies_enterLocked turn l bytes s
    · exact .of_eq (by simp)
  · exact .refl

theorem notifies_lockedTestWith {between : State → State} (hb : Notifies between) (turn : Turn) (l : Link) (bytes : List Byte) :
    Notifies (lockedTestWith between turn l bytes) := by
  intro s
  unfold lockedTestWith
  dsimp only
  split
  · split
    · exact (notifies_handOn hb l (decodeCell bytes)).of_notices (by simp)
    · split
      · exact .of_eq (by simp)
      · exact (notifies_reportLockLost turn l).of_notices (by simp)
  · exact .refl

theorem notifies_signalLossEvent (turn : Turn) (l : Link) : Notifies (signalLossEvent turn l) := by
  intro s
  unfold signalLossEvent
  dsimp only
  split
  · exact .of_eq (by simp)
  · split
    · exact (notifies_reportLockLost turn l).of_notices (by simp)
    · exact .of_eq (by simp)

theorem notifies_signalReturnEvent (l : Link) : Notifies (signalReturnEvent l) := by
  refine notifies_of_leaves fun s => ?_
  unfold signalReturnEvent
  split
  · rfl
  · split <;> simp

/-! ## Boundaries -/

theorem notifies_noticesTakeBoundary : Notifies noticesTakeBoundary := by
  intro s
  unfold noticesTakeBoundary
  split
  · exact NoticeMove.ticked.run
  · exact .refl

theorem surveyCountsBoundary_notices (s : State) : (surveyCountsBoundary s).notices = s.notices := by
  rw [surveyCountsBoundary_eq]

theorem notifies_surveyTakesBoundary : Notifies surveyTakesBoundary := fun s =>
  (notifies_postSurveyDone s).of_notices (surveyCountsBoundary_notices s)

theorem notifies_switchPlans (target : PlanId) (mode : SwitchMode) : Notifies (switchPlans target mode) := by
  intro s
  unfold switchPlans
  dsimp only
  split
  · simp only [complete_leaves, reportPlanChange_leaves]
    exact (notifies_post (by decide) _ _).of_notices rfl
  · simp only [reportPlanChange_leaves]
    exact (notifies_post (by decide) _ _).of_notices rfl

theorem notifies_revertPlans (fallback : PlanId) : Notifies (revertPlans fallback) := by
  intro s
  simp only [revertPlans, reportPlanChange_leaves]
  exact (notifies_post (by decide) _ _).of_notices rfl

theorem notifies_plansTakeBoundary : Notifies plansTakeBoundary := by
  intro s
  unfold plansTakeBoundary
  split
  · dsimp only
    split
    · exact .refl
    · exact (notifies_switchPlans _ _).of_notices rfl
    · split
      · exact (notifies_revertPlans _).of_notices rfl
      · exact .refl
  · exact .refl

theorem notifies_deliverBoundary {blocks : State → State} (h : Notifies blocks) (noticesLate : Bool) :
    Notifies (deliverBoundary noticesLate blocks) := by
  intro s
  unfold deliverBoundary
  split
  · dsimp only
    split
    · exact h.of_notices rfl
    · exact notifies_noticesTakeBoundary.after (h.of_notices rfl)
  · exact .refl

theorem notifies_planAndSurvey {taking : State → State} (h : Notifies taking) (turn : Turn) : Notifies (planAndSurvey turn taking) := fun s =>
  notifies_postBeside (notifies_postSurveyDone s) h s

theorem notifies_boundaryEvent (order : BoundaryOrder) : Notifies (boundaryEvent order) := by
  have surveyFirst : Notifies fun u => plansTakeBoundary (surveyCountsBoundary u) := fun u =>
    notifies_plansTakeBoundary.of_notices (surveyCountsBoundary_notices u)
  have planFirst : Notifies fun u => surveyCountsBoundary (plansTakeBoundary u) := fun u => by
    rw [surveyCountsBoundary_notices]
    exact notifies_plansTakeBoundary u
  intro s
  unfold boundaryEvent
  split
  · exact notifies_surveyTakesBoundary s
  · exact notifies_deliverBoundary (notifies_planAndSurvey surveyFirst order.surveyPost) order.noticesLate s
  · exact notifies_deliverBoundary (notifies_planAndSurvey planFirst order.surveyPost) order.noticesLate s
  · exact notifies_deliverBoundary notifies_plansTakeBoundary order.noticesLate s

theorem notifies_revertEvent : Notifies revertEvent := by
  intro s
  unfold revertEvent
  split
  · exact notifies_plansTakeBoundary.of_notices rfl
  · exact .refl

theorem notifies_expiryEvent : Notifies expiryEvent := by
  intro s
  unfold expiryEvent
  split
  · exact notifies_noticesTakeBoundary s
  · exact .refl

theorem notifies_surveyDoneEvent : Notifies surveyDoneEvent := by
  intro s
  unfold surveyDoneEvent
  split
  · exact notifies_surveyTakesBoundary s
  · exact .refl

/-! ## Slots and cell times -/

theorem takeUp_notices {n : Trib} {c : Cell} {s t : State} (h : takeUp n s = some (c, t)) : t.notices = s.notices := by
  obtain ⟨rest, -, rfl⟩ := takeUp_eq_some h
  rfl

@[simp] theorem afterSend_notices (n : Trib) (c : Cell) (s : State) : (afterSend n c s).notices = s.notices := by
  unfold afterSend
  split <;> rfl

@[simp] theorem decideSpare_notices (s : State) : (decideSpare s).state.notices = s.notices := by
  unfold decideSpare
  split
  · rfl
  · dsimp only
    split
    · rfl
    · split
      · next htake => rw [afterSend_notices, takeUp_notices htake]
      · rfl

@[simp] theorem decideOwn_notices (n : Trib) (s : State) : (decideOwn n s).state.notices = s.notices := by
  unfold decideOwn
  split
  · rfl
  · split
    · next htake => rw [afterSend_notices, takeUp_notices htake]
    · exact decideSpare_notices s

/-- A slot reaches the notice list where it offers a notice (R85, R154). -/
theorem run_decideSlot (o : Owner) (s : State) : NoticeRun s.notices (decideSlot o s).state.notices := by
  cases o with
  | trib n => exact .of_eq (decideOwn_notices n s)
  | openSlot => exact .of_eq (decideSpare_notices s)
  | management =>
    unfold decideSlot decideManagement
    dsimp only
    split
    · exact .refl
    · split
      · next r records hoffer => exact (NoticeMove.sent r records hoffer).run
      · exact .of_eq (decideSpare_notices s)

@[simp] theorem advanceSlot_notices (length : Nat) (s : State) : (advanceSlot length s).notices = s.notices := by
  unfold advanceSlot
  split <;> rfl

theorem run_carrySlot (length : Nat) (d : Decision) : NoticeRun d.state.notices (carrySlot length d).notices := by
  simp only [carrySlot, advanceSlot_notices, reportSlot_leaves]
  exact notifies_surveyTakesBoundary.of_notices rfl

theorem notifies_settleNotices : Notifies settleNotices := by
  intro s
  unfold settleNotices
  split
  · exact .refl
  · exact notifies_noticesTakeBoundary s

theorem notifies_slotEvent : Notifies slotEvent := by
  intro s
  unfold slotEvent
  split
  · exact .refl
  · exact ((notifies_settleNotices s).trans (run_decideSlot _ _)).trans (run_carrySlot _ _)

theorem notifies_cellTimeEvent (n : Trib) : Notifies (cellTimeEvent n) := by
  refine notifies_of_leaves fun s => ?_
  unfold cellTimeEvent
  split
  · split
    · next htake =>
      obtain ⟨rest, -, rfl⟩ := takeDown_eq_some htake
      rfl
    · rfl
  · rfl

end Sys2Proof.Proofs.Notices
end

section
/-! PROOFS. Every step moves the notice list in the ways of `NoticeMove` alone: what the work of each command leaves of the list, and the steps
that are no command; so every step keeps the law of the list (R148, R149, R158). -/

namespace Sys2Proof.Proofs.Notices

open Sys2Proof.Machine Sys2Proof.Safety Sys2Proof.Laws Sys2Proof.Claims Sys2Proof.Proofs.CellLink

/-! ## Executions that leave the list -/

/-- Work that leaves the notice list. -/
def LeavesNotices (work : TakenCommand → State → State) : Prop := ∀ c s, (work c s).notices = s.notices

@[simp] theorem answerRange_notices (c : TakenCommand) (s : State) : (answerRange c s).notices = s.notices := rfl

@[simp] theorem writeEditPlan_notices (c : TakenCommand) (change : Plan → Plan) (s : State) :
    (writeEditPlan c change s).notices = s.notices := by
  unfold writeEditPlan
  split <;> rfl

theorem leavesNotices_echo : LeavesNotices workEcho := fun _ _ => rfl

theorem leavesNotices_identify : LeavesNotices workIdentify := fun _ _ => rfl

theorem leavesNotices_readStatus : LeavesNotices workReadStatus := fun _ _ => rfl

theorem leavesNotices_selectEditPlan : LeavesNotices workSelectEditPlan := fun c s => by
  unfold workSelectEditPlan
  split <;> rfl

theorem leavesNotices_writeSlots : LeavesNotices workWriteSlots := fun c s => by
  unfold workWriteSlots
  dsimp only
  repeat' split
  all_goals simp

theorem leavesNotices_setCycleLength : LeavesNotices workSetCycleLength := fun c s => by
  unfold workSetCycleLength
  dsimp only
  split <;> simp

theorem leavesNotices_writeTributaryEntry : LeavesNotices workWriteTributaryEntry := fun c s => by
  unfold workWriteTributaryEntry
  split <;> simp

theorem leavesNotices_setPlanOptions : LeavesNotices workSetPlanOptions := fun c s => by
  unfold workSetPlanOptions
  split <;> simp

theorem leavesNotices_copyPlan : LeavesNotices workCopyPlan := fun c s => writeEditPlan_notices c _ s

theorem leavesNotices_readSlots : LeavesNotices workReadSlots := fun c s => by
  unfold workReadSlots
  dsimp only
  repeat' split
  all_goals rfl

theorem leavesNotices_readTributaryEntry : LeavesNotices workReadTributaryEntry := fun c s => by
  unfold workReadTributaryEntry
  split <;> rfl

theorem leavesNotices_readPlanOptions : LeavesNotices workReadPlanOptions := fun c s => by
  unfold workReadPlanOptions
  split <;> rfl

theorem leavesNotices_switchPlan : LeavesNotices workSwitchPlan := fun c s => by
  unfold workSwitchPlan
  repeat' split
  all_goals rfl

theorem leavesNotices_confirmPlan : LeavesNotices workConfirmPlan := fun c s => by
  unfold workConfirmPlan
  split <;> rfl

theorem leavesNotices_readPort : LeavesNotices workReadPort := fun c s => by
  unfold workReadPort
  split <;> rfl

theorem leavesNotices_writeChannels : LeavesNotices workWriteChannels := fun c s => by
  unfold workWriteChannels
  dsimp only
  repeat' split
  all_goals rfl

theorem leavesNotices_readChannel : LeavesNotices workReadChannel := fun c s => by
  unfold workReadChannel
  dsimp only
  split <;> rfl

theorem leavesNotices_readCounters : LeavesNotices workReadCounters := fun c s => by
  unfold workReadCounters
  split <;> rfl

theorem leavesNotices_clearCounters : LeavesNotices workClearCounters := fun c s => by
  unfold workClearCounters
  split <;> rfl

theorem leavesNotices_startSurvey : LeavesNotices workStartSurvey := fun c s => by
  unfold workStartSurvey
  dsimp only
  split <;> rfl

theorem leavesNotices_stopSurvey : LeavesNotices workStopSurvey := fun c s => by
  unfold workStopSurvey
  dsimp only
  repeat' split
  all_goals rfl

theorem leavesNotices_readSurvey : LeavesNotices workReadSurvey := fun c s => by
  unfold workReadSurvey
  split <;> rfl

/-! ## Executions that move the list -/

/-- Command work that moves the notice list in the ways of `NoticeMove` alone. -/
def WorkNotifies (work : TakenCommand → State → State) : Prop := ∀ c, Notifies (work c)

theorem LeavesNotices.notifies {work : TakenCommand → State → State} (h : LeavesNotices work) : WorkNotifies work := fun c =>
  notifies_of_leaves (h c)

theorem workNotifies_restart : WorkNotifies workRestart := fun _ _ => NoticeMove.restarted.run

/-- A port that WRITE PORT disables makes two postings at most, its state's and the cut's, in either order (R51, R147). -/
theorem notifies_applyPortEntry (turn : Turn) (n : Trib) (e : PortEntry) : Notifies (applyPortEntry turn n e) := by
  have closed : Notifies (disableTraffic n) := fun u => by
    simp only [disableTraffic, closeDownlink_leaves, setIngress_leaves]
    exact notifies_cutAll n _ u
  intro s
  unfold applyPortEntry
  dsimp only
  refine (notifies_postBeside (notifies_postStateChange n _ _) ?_).of_notices (by simp)
  split
  · exact closed
  · exact notifies_id

theorem workNotifies_writePort (turn : Turn) : WorkNotifies (workWritePort turn) := fun c s => by
  unfold workWritePort
  dsimp only
  split
  · split
    · exact notifies_applyPortEntry turn _ _ s
    · exact .refl
  · exact .refl

theorem notifies_flushUplink (n : Trib) : Notifies (flushUplink n) := by
  intro s
  unfold flushUplink
  dsimp only
  split
  · simp only [setIngress_leaves]
    exact notifies_cutAll n _ s
  · exact notifies_cutAll n _ s
  · exact notifies_cutAll n _ s

theorem workNotifies_flushPort : WorkNotifies workFlushPort := fun c s => by
  unfold workFlushPort
  dsimp only
  split
  · split
    · exact notifies_flushUplink _ s
    · split
      · exact .refl
      · split
        · exact notifies_flushUplink _ s
        · exact .refl
  · exact .refl

theorem workNotifies_ackNotice : WorkNotifies workAckNotice := fun c s => by
  unfold workAckNotice
  dsimp only
  split
  · exact .refl
  · split
    · split
      · exact (NoticeMove.acknowledged _).run
      · split
        · exact (NoticeMove.rewaited _).run
        · exact .refl
    · exact .refl

theorem workNotifies_setNoticeOptions : WorkNotifies workSetNoticeOptions := fun c s => by
  unfold workSetNoticeOptions
  dsimp only
  split
  · exact .refl
  · next hgood =>
    obtain ⟨hinterval, hnamed⟩ := not_or.mp hgood
    exact (NoticeMove.options _ _ (not_not.mp hnamed) hinterval).run

/-- The start and the completion of a command leave the notice list, which only its own work moves (R133, R134). -/
theorem notifies_runCommand {k : CommandKind} {work : TakenCommand → State → State} (hw : WorkNotifies work) : Notifies (runCommand k work) :=
  fun s =>
    runCommand_cases (motive := fun t => NoticeRun s.notices t.notices) .refl (fun _ _ _ => .refl)
      fun c rest _ => hw c (beginCommand rest s)

theorem notifies_runUnknown : Notifies runUnknown := notifies_of_leaves (runUnknown_keeps (field := State.notices) fun _ _ => rfl)

/-- The step of a command executes, while the part runs, work that moves the notice list in the ways of `NoticeMove` alone (R133). -/
theorem exec_of_command {i : Instr} {k : CommandKind} (h : kindOf i = some k) :
    ∃ work, WorkNotifies work ∧ ∀ s, exec i s = .next (whileRunning s (runCommand k work)) := by
  cases i <;> cases h
  case echo => exact ⟨_, leavesNotices_echo.notifies, fun _ => rfl⟩
  case identify => exact ⟨_, leavesNotices_identify.notifies, fun _ => rfl⟩
  case readStatus => exact ⟨_, leavesNotices_readStatus.notifies, fun _ => rfl⟩
  case restart => exact ⟨_, workNotifies_restart, fun _ => rfl⟩
  case selectEditPlan => exact ⟨_, leavesNotices_selectEditPlan.notifies, fun _ => rfl⟩
  case writeSlots => exact ⟨_, leavesNotices_writeSlots.notifies, fun _ => rfl⟩
  case setCycleLength => exact ⟨_, leavesNotices_setCycleLength.notifies, fun _ => rfl⟩
  case writeTributaryEntry => exact ⟨_, leavesNotices_writeTributaryEntry.notifies, fun _ => rfl⟩
  case setPlanOptions => exact ⟨_, leavesNotices_setPlanOptions.notifies, fun _ => rfl⟩
  case copyPlan => exact ⟨_, leavesNotices_copyPlan.notifies, fun _ => rfl⟩
  case readSlots => exact ⟨_, leavesNotices_readSlots.notifies, fun _ => rfl⟩
  case readTributaryEntry => exact ⟨_, leavesNotices_readTributaryEntry.notifies, fun _ => rfl⟩
  case readPlanOptions => exact ⟨_, leavesNotices_readPlanOptions.notifies, fun _ => rfl⟩
  case switchPlan => exact ⟨_, leavesNotices_switchPlan.notifies, fun _ => rfl⟩
  case confirmPlan => exact ⟨_, leavesNotices_confirmPlan.notifies, fun _ => rfl⟩
  case writePort turn => exact ⟨_, workNotifies_writePort turn, fun _ => rfl⟩
  case readPort => exact ⟨_, leavesNotices_readPort.notifies, fun _ => rfl⟩
  case flushPort => exact ⟨_, workNotifies_flushPort, fun _ => rfl⟩
  case writeChannels => exact ⟨_, leavesNotices_writeChannels.notifies, fun _ => rfl⟩
  case readChannel => exact ⟨_, leavesNotices_readChannel.notifies, fun _ => rfl⟩
  case readCounters => exact ⟨_, leavesNotices_readCounters.notifies, fun _ => rfl⟩
  case clearCounters => exact ⟨_, leavesNotices_clearCounters.notifies, fun _ => rfl⟩
  case startSurvey => exact ⟨_, leavesNotices_startSurvey.notifies, fun _ => rfl⟩
  case stopSurvey => exact ⟨_, leavesNotices_stopSurvey.notifies, fun _ => rfl⟩
  case readSurvey => exact ⟨_, leavesNotices_readSurvey.notifies, fun _ => rfl⟩
  case ackNotice => exact ⟨_, workNotifies_ackNotice, fun _ => rfl⟩
  case setNoticeOptions => exact ⟨_, workNotifies_setNoticeOptions, fun _ => rfl⟩

/-! ## Between two offers (R116) -/

theorem notifies_runStoreEvent (e : StoreEvent) : Notifies (runStoreEvent e) := by
  intro s
  cases e with
  | slot => exact notifies_slotEvent s
  | cellTime n => exact notifies_cellTimeEvent n s
  | headerTest n bytes turn =>
    simp only [runStoreEvent]
    split
    · exact notifies_confirmTest turn _ bytes s
    · exact notifies_lockedTestWith notifies_id turn _ bytes s
  | signalLoss n turn => exact notifies_signalLossEvent turn _ s
  | writePort turn => exact notifies_runCommand (workNotifies_writePort turn) s
  | flushPort => exact notifies_runCommand workNotifies_flushPort s

theorem notifies_runStoreEvents (events : List StoreEvent) : Notifies (runStoreEvents events) := by
  induction events with
  | nil => exact notifies_id
  | cons e rest ih => exact fun s => ih.after (notifies_runStoreEvent e s)

/-! ## Every step -/

theorem notifies_whileRunning {event : State → State} (h : Notifies event) : Notifies (whileRunning · event) := fun s =>
  whileRunning_cases (motive := fun t => NoticeRun s.notices t.notices) .refl fun _ => h s

theorem notifies_resetNEvent : Notifies resetNEvent := by
  refine notifies_of_leaves fun s => ?_
  unfold resetNEvent
  dsimp only
  split <;> rfl

theorem notifies_hardResetEndEvent : Notifies hardResetEndEvent := by
  intro s
  unfold hardResetEndEvent
  split
  · exact (NoticeMove.reset _).run
  · exact .refl

/-- Every step is an event that moves the notice list in the ways of `NoticeMove` alone. -/
theorem exec_notifies (i : Instr) : ∃ event, Notifies event ∧ ∀ s, exec i s = .next (event s) := by
  cases hkind : kindOf i with
  | some k =>
    obtain ⟨work, hwork, hexec⟩ := exec_of_command hkind
    exact ⟨_, notifies_whileRunning (notifies_runCommand hwork), hexec⟩
  | none =>
    cases i with
    | powerOn => exact ⟨powerOnEvent, notifies_of_leaves fun _ => rfl, fun _ => rfl⟩
    | resetN => exact ⟨_, notifies_resetNEvent, fun _ => rfl⟩
    | hardResetEnd => exact ⟨_, notifies_hardResetEndEvent, fun _ => rfl⟩
    | signalLoss l turn => exact ⟨_, notifies_signalLossEvent turn l, fun _ => rfl⟩
    | signalReturn l => exact ⟨_, notifies_signalReturnEvent l, fun _ => rfl⟩
    | seekHeaderTest l bytes => exact ⟨_, notifies_whileRunning (notifies_seekTest l bytes), fun _ => rfl⟩
    | confirmHeaderTest l bytes turn => exact ⟨_, notifies_whileRunning (notifies_confirmTest turn l bytes), fun _ => rfl⟩
    | lockedHeaderTest l bytes between turn =>
      exact ⟨_, notifies_whileRunning (notifies_lockedTestWith (notifies_runStoreEvents between) turn l bytes), fun _ => rfl⟩
    | slot => exact ⟨_, notifies_whileRunning notifies_slotEvent, fun _ => rfl⟩
    | cycleBoundary order => exact ⟨_, notifies_whileRunning (notifies_boundaryEvent order), fun _ => rfl⟩
    | planReverted => exact ⟨_, notifies_whileRunning notifies_revertEvent, fun _ => rfl⟩
    | noticeRepeatExpiry => exact ⟨_, notifies_whileRunning notifies_expiryEvent, fun _ => rfl⟩
    | surveyDone => exact ⟨_, notifies_whileRunning notifies_surveyDoneEvent, fun _ => rfl⟩
    | tributaryCellTime n => exact ⟨_, notifies_whileRunning (notifies_cellTimeEvent n), fun _ => rfl⟩
    | unknownKind => exact ⟨_, notifies_whileRunning notifies_runUnknown, fun _ => rfl⟩
    | _ => cases hkind

theorem exec_noticeRun {i : Instr} {s t : State} (ht : exec i s = .next t) : NoticeRun s.notices t.notices := by
  obtain ⟨event, hnotifies, hexec⟩ := exec_notifies i
  obtain rfl := Host.Outcome.next.inj ((hexec s).symm.trans ht)
  exact hnotifies s

/-- Settles O11: every step moves the notice list in the ways of `NoticeMove`, and each of them keeps the law. -/
theorem stepKeepsNoticeList : Obligations.StepKeepsNoticeList := by
  unfold Obligations.StepKeepsNoticeList
  intro s t hs h
  exact step_keeps (fun _ _ hs => hs)
    (fun _ _ _ hs ht => noticesOk_iff.mpr ((exec_noticeRun ht).keeps_law (noticesOk_iff.mp hs))) hs h

end Sys2Proof.Proofs.Notices
end

section
/-! PROOFS. READ COUNTERS and CLEAR COUNTERS: the group set two operands name, its seven counters byte by byte, and a group set cleared beside
the others (R162 to R168). -/

namespace Sys2Proof.Proofs.CountersAndSurvey

open Sys2Proof.Machine Sys2Proof.Laws Sys2Proof.Claims Sys2Proof.Proofs.CellStore Sys2Proof.Proofs.SlotScheduler

/-! ## The group set two operands name (R167) -/

theorem eq_byteOf_of_tribOf {b : Byte} {n : Trib} (h : tribOf b = some n) : b = byteOf n.val := by
  obtain ⟨hb, hn⟩ := Option.dite_none_right_eq_some.mp h
  obtain rfl := Option.some.inj hn
  simp [byteOf]

theorem groupOf_groupOperands (g : CounterGroup) : groupOf (groupOperands g).1 (groupOperands g).2 = some g := by
  cases g with
  | uplink n | downlink n => simp [groupOf, groupOperands, tribOf_byteOf]
  | trunk | management => rfl

theorem groupOperands_of_groupOf {group which : Byte} {g : CounterGroup} (h : groupOf group which = some g) :
    (group, which) = groupOperands g := by
  unfold groupOf at h
  split_ifs at h with huplink hdownlink htrunk hmanagement
  · obtain ⟨n, hn, rfl⟩ := Option.map_eq_some_iff.mp h
    rw [huplink, eq_byteOf_of_tribOf hn, groupOperands]
  · obtain ⟨n, hn, rfl⟩ := Option.map_eq_some_iff.mp h
    rw [hdownlink, eq_byteOf_of_tribOf hn, groupOperands]
  · obtain rfl := Option.some.inj h
    rw [htrunk.1, htrunk.2, groupOperands]
  · obtain rfl := Option.some.inj h
    rw [hmanagement.1, hmanagement.2, groupOperands]

section Groups

variable {c : TakenCommand} {g : CounterGroup}

theorem groupOf_of_named (h : NamesGroup c.operands g) : groupOf (byteAt c.operands 0) (byteAt c.operands 1) = some g := by
  obtain ⟨hgroup, hwhich⟩ := Prod.mk.inj (show (_, _) = ((groupOperands g).1, (groupOperands g).2) from h)
  rw [hgroup, hwhich, groupOf_groupOperands]

theorem groupOf_of_unnamed (h : ∀ g, ¬NamesGroup c.operands g) : groupOf (byteAt c.operands 0) (byteAt c.operands 1) = none :=
  Option.eq_none_iff_forall_ne_some.mpr fun g hg => h g (groupOperands_of_groupOf hg)

theorem workReadCounters_of_named (h : NamesGroup c.operands g) (u : State) :
    workReadCounters c u = complete c .ok (counterData (u.bank.values g)) u := by
  simp only [workReadCounters, groupOf_of_named h]

theorem workReadCounters_of_unnamed (h : ∀ g, ¬NamesGroup c.operands g) (u : State) : workReadCounters c u = complete c .range [] u := by
  simp only [workReadCounters, groupOf_of_unnamed h, answerRange]

theorem workClearCounters_of_named (h : NamesGroup c.operands g) (u : State) :
    workClearCounters c u = complete c .ok (counterData (u.bank.values g)) { u with bank := u.bank.cleared g } := by
  simp only [workClearCounters, groupOf_of_named h]

theorem workClearCounters_of_unnamed (h : ∀ g, ¬NamesGroup c.operands g) (u : State) : workClearCounters c u = complete c .range [] u := by
  simp only [workClearCounters, groupOf_of_unnamed h, answerRange]

end Groups

/-! ## Seven counters as 28 bytes (R167) -/

theorem values_length (b : CounterBank) (g : CounterGroup) : (b.values g).length = 7 := by
  cases g <;> rfl

theorem bytes32_length (v : BitVec 32) : (bytes32 v).length = 4 := rfl

theorem counterData_cons (v : BitVec 32) (values : List (BitVec 32)) : counterData (v :: values) = bytes32 v ++ counterData values := rfl

/-- The four bytes of a counter, the most significant first. -/
theorem byteAt_bytes32 (v : BitVec 32) {j : Nat} (hj : j < 4) : byteAt (bytes32 v) j = v.extractLsb' (24 - 8 * j) 8 := by
  interval_cases j <;> rfl

theorem counterData_length (values : List (BitVec 32)) : (counterData values).length = 4 * values.length := by
  induction values with
  | nil => rfl
  | cons v values ih =>
    rw [counterData_cons, List.length_append, bytes32_length, ih, List.length_cons, Nat.mul_succ, Nat.add_comm]

/-- Four bytes for each counter: byte `j` of counter `i` stands at `4 * i + j`. -/
theorem byteAt_counterData {values : List (BitVec 32)} {i j : Nat} (hi : i < values.length) (hj : j < 4) :
    byteAt (counterData values) (4 * i + j) = (values.getD i 0).extractLsb' (24 - 8 * j) 8 := by
  induction values generalizing i with
  | nil => cases hi
  | cons v values ih =>
    rw [counterData_cons]
    cases i with
    | zero =>
      rw [Nat.mul_zero, Nat.zero_add, byteAt_append_left hj, byteAt_bytes32 v hj]
      rfl
    | succ i =>
      rw [show 4 * (i + 1) + j = 4 + (4 * i + j) by omega, byteAt_append_right (bytes32_length v), ih (Nat.lt_of_succ_lt_succ hi)]
      rfl

theorem spellsCounters_counterData {values : List (BitVec 32)} (h : values.length = 7) : SpellsCounters (counterData values) values := by
  refine ⟨?_, fun i j hi hj => byteAt_counterData (h.symm ▸ hi) hj⟩
  rw [counterData_length, h]

/-! ## A group set cleared (R168) -/

theorem values_cleared_self (b : CounterBank) (g : CounterGroup) : (b.cleared g).values g = List.replicate 7 0 := by
  cases g with
  | uplink n | downlink n =>
    simp only [CounterBank.cleared, CounterBank.values, Fin.getElem_fin, Vector.getElem_set_self]
    rfl
  | trunk | management => rfl

/-- Two group sets share a block of the bank only as the groups of two tributaries. -/
theorem values_cleared_of_ne (b : CounterBank) {g h : CounterGroup} (hne : h ≠ g) : (b.cleared g).values h = b.values h := by
  cases g with
  | uplink n =>
    cases h with
    | uplink m =>
      have hmn : n.val ≠ m.val := fun e => hne (congrArg _ (Fin.ext e.symm))
      simp only [CounterBank.cleared, CounterBank.values, Fin.getElem_fin, Vector.getElem_set_ne _ _ hmn]
    | downlink | trunk | management => rfl
  | downlink n =>
    cases h with
    | downlink m =>
      have hmn : n.val ≠ m.val := fun e => hne (congrArg _ (Fin.ext e.symm))
      simp only [CounterBank.cleared, CounterBank.values, Fin.getElem_fin, Vector.getElem_set_ne _ _ hmn]
    | uplink | trunk | management => rfl
  | trunk =>
    cases h with
    | trunk => exact absurd rfl hne
    | uplink | downlink | management => rfl
  | management =>
    cases h with
    | management => exact absurd rfl hne
    | uplink | downlink | trunk => rfl

/-- Settles O56: the operands decide the group set, whose data spells its counters, and clearing it reaches no other. -/
theorem countersAreReadAndCleared : Obligations.CountersAreReadAndCleared := by
  unfold Obligations.CountersAreReadAndCleared
  intro c rest s
  have hread (h : Ready .readCounters c rest s) : exec .readCounters s = .next (workReadCounters c (beginCommand rest s)) :=
    exec_of_ready h rfl
  have hclear (h : Ready .clearCounters c rest s) : exec .clearCounters s = .next (workClearCounters c (beginCommand rest s)) :=
    exec_of_ready h rfl
  refine ⟨fun g hg => ?_, fun hnone => ?_⟩
  · have hspells : SpellsCounters (counterData (s.bank.values g)) (s.bank.values g) :=
      spellsCounters_counterData (values_length s.bank g)
    rw [workReadCounters_of_named hg] at hread
    rw [workClearCounters_of_named hg] at hclear
    exact ⟨fun hready => ⟨_, answers_complete (hread hready) rfl, hspells⟩,
      fun hready => ⟨_, s.bank.cleared g, answers_complete (hclear hready) rfl, hspells, values_cleared_self s.bank g,
        fun h hne => values_cleared_of_ne s.bank hne⟩⟩
  · rw [workReadCounters_of_unnamed hnone] at hread
    rw [workClearCounters_of_unnamed hnone] at hclear
    exact ⟨fun hready => answers_complete (hread hready) rfl, fun hready => answers_complete (hclear hready) rfl⟩

end Sys2Proof.Proofs.CountersAndSurvey
end

section
/-! PROOFS. START SURVEY and STOP SURVEY by the survey's state and window (R170, R174), and READ SURVEY page by page (R175). -/

namespace Sys2Proof.Proofs.CountersAndSurvey

open Sys2Proof.Machine Sys2Proof.Laws Sys2Proof.Claims Sys2Proof.Proofs.CellStore Sys2Proof.Proofs.SlotScheduler

theorem surveyState_code_eq (x : SurveyState) : x.code = match x with | .idle => 0 | .armed => 1 | .running => 2 | .done => 3 := by
  cases x <;> rfl

theorem surveyPosition_eq (v : Survey) : surveyPosition v = v.state.code :: bytes16 v.window.toNat := rfl

section StartAndStop

variable {c : TakenCommand} {u : State}

/-! ## START SURVEY (R170) -/

theorem workStartSurvey_of_free (h : u.survey.state = .idle ∨ u.survey.state = .done) :
    workStartSurvey c u =
      complete c .ok []
        { u with survey := { Survey.reset with state := .armed, window := BitVec.ofNat 16 (wordAt c.operands 0) } } := by
  obtain h | h := h <;> simp only [workStartSurvey, h]

theorem workStartSurvey_of_busy (h : u.survey.state = .armed ∨ u.survey.state = .running) :
    workStartSurvey c u = complete c .state (surveyPosition u.survey) u := by
  obtain h | h := h <;> simp only [workStartSurvey, h]

/-! ## STOP SURVEY (R174) -/

theorem workStopSurvey_of_open (hstate : u.survey.state = .armed ∨ u.survey.state = .running) (hwindow : u.survey.window = 0) :
    workStopSurvey c u =
      complete c .ok (bytes16 u.survey.cycles.toNat) { u with survey := { u.survey with state := .done, stopped := true } } := by
  obtain h | h := hstate <;> simp only [workStopSurvey, h, hwindow, if_true]

/-- A survey that does not run until it is stopped is answered where it stands. -/
theorem workStopSurvey_of_refused (h : u.survey.state = .idle ∨ u.survey.state = .done ∨ u.survey.window ≠ 0) :
    workStopSurvey c u = complete c .state (surveyPosition u.survey) u := by
  obtain hidle | hdone | hwindow := h
  · simp only [workStopSurvey, hidle]
  · simp only [workStopSurvey, hdone]
  · cases hstate : u.survey.state <;> simp only [workStopSurvey, hstate, if_neg hwindow]

end StartAndStop

/-- Settles O57: each command either acts on the survey, by its state and window, or answers with the two. -/
theorem surveyIsStartedAndStopped : Obligations.SurveyIsStartedAndStopped := by
  unfold Obligations.SurveyIsStartedAndStopped
  refine fun c rest s => ⟨fun hready => ?_, fun hready => ?_⟩
  · have hexec : exec .startSurvey s = .next (workStartSurvey c (beginCommand rest s)) := exec_of_ready hready rfl
    have hbusy (h : s.survey.state = .armed ∨ s.survey.state = .running) :
        Answers .startSurvey c rest .state (s.survey.state.code :: bytes16 s.survey.window.toNat) s s := by
      rw [workStartSurvey_of_busy (u := beginCommand rest s) h, surveyPosition_eq] at hexec
      exact answers_complete hexec rfl
    refine ⟨fun hfree => ?_, fun harmed => ?_, fun hrunning => ?_⟩
    · rw [workStartSurvey_of_free (u := beginCommand rest s) hfree] at hexec
      exact answers_complete hexec rfl
    · rw [harmed] at hbusy
      exact hbusy (.inl rfl)
    · rw [hrunning] at hbusy
      exact hbusy (.inr rfl)
  · have hexec : exec .stopSurvey s = .next (workStopSurvey c (beginCommand rest s)) := exec_of_ready hready rfl
    refine ⟨fun hstate hwindow => ?_, fun hrefused => ?_⟩
    · rw [workStopSurvey_of_open (u := beginCommand rest s) hstate hwindow] at hexec
      exact answers_complete hexec rfl
    · rw [workStopSurvey_of_refused (u := beginCommand rest s) hrefused, surveyPosition_eq, surveyState_code_eq] at hexec
      exact answers_complete hexec rfl

/-! ## The data of a response (R134, R179) -/

/-- A step answers its command with one list of data bytes. -/
theorem answers_data_unique {i : Instr} {c : TakenCommand} {rest : List TakenCommand} {r₁ r₂ : Result} {d₁ d₂ : List Byte} {s u₁ u₂ : State}
    (h₁ : Answers i c rest r₁ d₁ s u₁) (h₂ : Answers i c rest r₂ d₂ s u₂) : d₁ = d₂ := by
  obtain ⟨e₁, hexec₁, -, -, -, -, hstored₁⟩ := h₁
  obtain ⟨e₂, hexec₂, -, -, -, -, hstored₂⟩ := h₂
  have he : e₁ = e₂ := congrArg State.engine (Host.Outcome.next.inj (hexec₁.symm.trans hexec₂))
  exact congrArg Response.data (Option.some.inj (hstored₁.symm.trans (he ▸ hstored₂)))

theorem wordAt_append_right {xs ys : List Byte} {k i : Nat} (h : xs.length = k) : wordAt (xs ++ ys) (k + i) = wordAt ys i := by
  rw [wordAt, Nat.add_assoc, byteAt_append_right h, byteAt_append_right h, wordAt]

theorem wordAt_bytes16_append (w : BitVec 16) (ys : List Byte) : wordAt (bytes16 w.toNat ++ ys) 0 = w.toNat := word_bytes16 w.isLt

/-! ## READ SURVEY (R175) -/

/-- The three bytes that every page begins with: the survey state and the cycles counted (R175). -/
def surveyFront (v : Survey) : List Byte := [v.state.code] ++ bytes16 v.cycles.toNat

theorem surveyFront_length (v : Survey) : (surveyFront v).length = 3 := rfl

theorem byteAt_surveyFront (v : Survey) (ys : List Byte) : byteAt (surveyFront v ++ ys) 0 = v.state.code := rfl

theorem wordAt_surveyFront (v : Survey) (ys : List Byte) : wordAt (surveyFront v ++ ys) 1 = v.cycles.toNat := word_bytes16 v.cycles.isLt

/-- The four tributaries whose counters page 0 or page 1 holds (R175). -/
def pageTribs (page : Nat) : List Trib := if page = 0 then [0, 1, 2, 3] else [4, 5, 6, 7]

theorem pageTribs_length (page : Nat) : (pageTribs page).length = 4 := by
  unfold pageTribs
  split <;> rfl

theorem pageTribs_get : ∀ n : Trib, (pageTribs (n.val / 4))[n.val % 4]? = some n := by
  decide

/-- The nine bytes of page 2 behind the front: the idle, management and abandon counters, the flags and the window (R175). -/
def surveySummary (v : Survey) : List Byte :=
  bytes16 v.idle.toNat ++ bytes16 v.management.toNat ++ bytes16 v.abandon.toNat ++ [surveyFlags v] ++ bytes16 v.window.toNat

/-- The bytes of a page behind its front. -/
def pageBody (v : Survey) (page : Nat) : List Byte := if page ≤ 1 then (pageTribs page).flatMap (surveyPair v) else surveySummary v

theorem surveyPage_of_le {page : Nat} (h : page ≤ 2) (v : Survey) : surveyPage v page = some (surveyFront v ++ pageBody v page) := by
  interval_cases page <;> rfl

theorem surveyPage_of_gt {page : Nat} (h : 2 < page) (v : Survey) : surveyPage v page = none := by
  simp only [surveyPage, show page ≠ 0 by omega, show page ≠ 1 by omega, show page ≠ 2 by omega, if_false]

theorem surveyPair_length (v : Survey) (n : Trib) : (surveyPair v n).length = 4 := rfl

theorem flatMap_surveyPair_length (v : Survey) (tribs : List Trib) : (tribs.flatMap (surveyPair v)).length = 4 * tribs.length := by
  induction tribs with
  | nil => rfl
  | cons n tribs ih =>
    rw [List.flatMap_cons, List.length_append, surveyPair_length, ih, List.length_cons, Nat.mul_succ, Nat.add_comm]

/-- Four bytes for each tributary, its own cells and then its borrowed cells. -/
theorem wordAt_flatMap_surveyPair (v : Survey) {tribs : List Trib} {k : Nat} {n : Trib} (h : tribs[k]? = some n) :
    wordAt (tribs.flatMap (surveyPair v)) (4 * k) = v.own[n].toNat
      ∧ wordAt (tribs.flatMap (surveyPair v)) (4 * k + 2) = v.borrowed[n].toNat := by
  induction tribs generalizing k with
  | nil => cases h
  | cons m tribs ih =>
    rw [List.flatMap_cons]
    cases k with
    | zero =>
      cases h
      exact ⟨word_bytes16 v.own[n].isLt, word_bytes16 v.borrowed[n].isLt⟩
    | succ k =>
      rw [show 4 * (k + 1) = 4 + 4 * k by omega, Nat.add_assoc, wordAt_append_right (surveyPair_length v m),
        wordAt_append_right (surveyPair_length v m)]
      exact ih h

theorem pageBody_of_le {page : Nat} (h : page ≤ 1) (v : Survey) : pageBody v page = (pageTribs page).flatMap (surveyPair v) := if_pos h

/-- The flags' byte is the sum of the weights of the flags set (R175). -/
theorem surveyFlags_toNat (v : Survey) :
    (surveyFlags v).toNat = (if v.planSwitched then 1 else 0) + (if v.lockLost then 2 else 0) + (if v.stopped then 4 else 0) := by
  unfold surveyFlags byteOf
  rw [BitVec.toNat_ofNat]
  exact Nat.mod_eq_of_lt (by split_ifs <;> decide)

section ReadSurvey

variable {c : TakenCommand}

theorem workReadSurvey_of_page (h : (byteAt c.operands 0).toNat ≤ 2) (u : State) :
    workReadSurvey c u = complete c .ok (surveyFront u.survey ++ pageBody u.survey (byteAt c.operands 0).toNat) u := by
  simp only [workReadSurvey, surveyPage_of_le h]

theorem workReadSurvey_of_range (h : 2 < (byteAt c.operands 0).toNat) (u : State) : workReadSurvey c u = complete c .range [] u := by
  simp only [workReadSurvey, surveyPage_of_gt h, answerRange]

end ReadSurvey

/-- Settles O58: a page is its front and its body, and the data of an answer can be no other. -/
theorem readSurveyReportsPages : Obligations.ReadSurveyReportsPages := by
  unfold Obligations.ReadSurveyReportsPages
  intro c rest s data hready
  have hexec : exec .readSurvey s = .next (workReadSurvey c (beginCommand rest s)) := exec_of_ready hready rfl
  have hpage (h : (byteAt c.operands 0).toNat ≤ 2) :
      Answers .readSurvey c rest .ok (surveyFront s.survey ++ pageBody s.survey (byteAt c.operands 0).toNat) s s := by
    rw [workReadSurvey_of_page h] at hexec
    exact answers_complete hexec rfl
  refine ⟨fun hlow hdata => ?_, fun htwo hdata => ?_, fun hlow => ?_, fun hrange => ?_⟩
  · obtain rfl := answers_data_unique hdata (hpage (by omega))
    rw [pageBody_of_le hlow]
    refine ⟨?_, wordAt_surveyFront _ _, fun n hn => ?_⟩
    · rw [List.length_append, flatMap_surveyPair_length, pageTribs_length, surveyFront_length]
    · rw [← hn, Nat.add_right_comm 3 2, Nat.add_assoc 3 _ 2, wordAt_append_right (surveyFront_length _),
        wordAt_append_right (surveyFront_length _)]
      exact wordAt_flatMap_surveyPair s.survey (pageTribs_get n)
  · obtain rfl := answers_data_unique hdata (hpage (by rw [htwo]; decide))
    rw [htwo]
    exact ⟨rfl, wordAt_surveyFront _ _, word_bytes16 s.survey.idle.isLt, word_bytes16 s.survey.management.isLt,
      word_bytes16 s.survey.abandon.isLt, surveyFlags_toNat s.survey, word_bytes16 s.survey.window.isLt⟩
  · exact ⟨_, hpage hlow, (byteAt_surveyFront _ _).trans (surveyState_code_eq _)⟩
  · rw [workReadSurvey_of_range hrange] at hexec
    exact answers_complete hexec rfl

end Sys2Proof.Proofs.CountersAndSurvey
end

section
/-! PROOFS. The step at a queue that is not empty; `step_of_idle` of the laws says what it does at an empty one. -/

namespace Sys2Proof.Proofs.StepQueue

open Sys2Proof.Machine

/-- Settles O1: a queue with a front is the second case of the step's match, whose answer is the run of that front. -/
theorem stepRunsFrontCommand : Obligations.StepRunsFrontCommand := by
  unfold Obligations.StepRunsFrontCommand
  intro i rest s hfront
  simp only [step, hfront]

end Sys2Proof.Proofs.StepQueue
end
